-- ==== Sys2Proof/Word.lean ====
section
/-! DEFINITION. The word types of WCE (00_scope.md R2, R7, R10): a 32-bit word for commands and registers, a
byte for one intensity of pixel memory. -/

namespace Sys2Proof

/-- A command word, or the value of a host-visible register: `REG_WIDTH` = 32 bits (R7, R90). -/
abbrev Word := BitVec 32

/-- One 8-bit intensity of pixel memory (R2, R43). -/
abbrev Byte := BitVec 8

end Sys2Proof
end

