-- ==== Sys2Proof/Syntax.lean ====
section
/-! DEFINITION. The commands of WCE: one constructor for each row of spec/opcode_table.json (30_encoding.md R104),
with the fields of its format (R92 to R100), and the pseudo-instructions of R107. -/

namespace Sys2Proof

/-- `BP` (30_encoding.md R94): how samples outside the image are sourced. The code 3 is reserved. -/
inductive BoundaryPolicy where
  | zeroFill    -- code 0, `.zero`, 41_window_engine.md R153
  | replicate   -- code 1, `.rep`, R154
  | reflect     -- code 2, `.refl`, R155
deriving DecidableEq, Repr

/-- `KSEL` (30_encoding.md R95): the kernel CONV applies. The codes 9 to 15 are reserved. -/
inductive KernelSel where
  | ident       -- 0
  | mean        -- 1
  | gauss       -- 2
  | sharpen     -- 3
  | sobel0      -- 4
  | sobel45     -- 5
  | sobel90     -- 6
  | sobel135    -- 7
  | kram        -- 8, the host's kernel in KRAM with divisor KDIV
deriving DecidableEq, Repr

/-- `MODE` (30_encoding.md R100): the grayscale mode. All four codes are legal. -/
inductive GrayMode where
  | standard    -- 0, `.std`
  | redOnly     -- 1, `.r`
  | greenOnly   -- 2, `.g`
  | blueOnly    -- 3, `.b`
deriving DecidableEq, Repr

/-- A command (30_encoding.md R93, R104). `kside` is `zext_4(SIZE)`, `radius` is `sext_4(SIZE)` (R97); `angles` is the
set `ANGLES`, bit 0 = 0°, bit 1 = 45°, bit 2 = 90°, bit 3 = 135° (R98). -/
inductive Instr where
  | nop
  | conv (bp : BoundaryPolicy) (ksel : KernelSel) (neg : Bool) (kside : Nat)
  | median (bp : BoundaryPolicy) (radius : Int)
  | sobel (bp : BoundaryPolicy) (angles : BitVec 4)
  | add
  | adds
  | sub
  | subs
  | mul
  | muls
  | div
  | divs
  | gamma
  | gray (mode : GrayMode)
deriving DecidableEq, Repr

/-- The eight angles of the pseudo-instruction `sobelk` (30_encoding.md R107). -/
inductive RotatedAngle where
  | a0
  | a45
  | a90
  | a135
  | a180
  | a225
  | a270
  | a315
deriving DecidableEq, Repr

/-- The pseudo-instructions (30_encoding.md R107); `Pseudo.expand` (Decode.lean) gives their commands. -/
inductive Pseudo where
  | ident (bp : BoundaryPolicy) (k : Nat)
  | mean (bp : BoundaryPolicy) (k : Nat)
  | gauss (bp : BoundaryPolicy) (k : Nat)
  | sharpen (bp : BoundaryPolicy) (k : Nat)
  | sobelk (bp : BoundaryPolicy) (angle : RotatedAngle)
deriving DecidableEq, Repr

end Sys2Proof
end

