-- ==== Sys2Proof/WellFormed.lean ====
section
/-! DEFINITION. Which terms of `Instr` are commands: those whose numbers fit their fields (30_encoding.md R97, R101).
A well-formed command may still fault on its field values (R103): those are parameter faults of its own rule. -/

namespace Sys2Proof

/-- The numbers of the command fit its word: `KSIDE` in 0..15, `RADIUS` in -8..7 (R97). -/
def Instr.wellFormed (i : Instr) : Bool :=
  match i with
  | .conv _ _ _ kside => decide (kside ≤ 15)
  | .median _ radius => decide (-8 ≤ radius) && decide (radius ≤ 7)
  | .nop => true
  | .sobel _ _ => true
  | .add => true
  | .adds => true
  | .sub => true
  | .subs => true
  | .mul => true
  | .muls => true
  | .div => true
  | .divs => true
  | .gamma => true
  | .gray _ => true

/-- The command is well formed. -/
abbrev Instr.WellFormed (i : Instr) : Prop := i.wellFormed = true

end Sys2Proof
end

