-- ==== Sys2Proof/Decode.lean ====
section
/-! DEFINITION. Decoding (30_encoding.md R102 to R104): total on every 32-bit word, rejecting by name, after the
opcode table of R104; then the encoder, written from the master layout of R91; then the pseudo-instructions of
R107 and the assembler's spelling of R106. -/

namespace Sys2Proof

/-- Why a word is illegal (30_encoding.md R102, items 1 to 4). -/
inductive DecodeError where
  /-- Item 1: `OP` is 0xA to 0xF. -/
  | reservedOpcode
  /-- Item 2: a bit outside the format of the word's `OP` is 1. -/
  | strayBit
  /-- Item 3: CONV, MEDIAN or SOBEL with `BP` = 3. -/
  | reservedPolicy
  /-- Item 4: CONV with `KSEL` 9 to 15. -/
  | reservedKernel
deriving DecidableEq, Repr

/-- The rows of the opcode table, by mnemonic (30_encoding.md R104). -/
inductive Op where
  | nop
  | conv
  | median
  | sobel
  | add
  | adds
  | sub
  | subs
  | mul
  | muls
  | div
  | divs
  | gamma
  | gray
deriving DecidableEq, Repr

/-- One row of R104: a word `w` selects it when `(w AND mask) = pattern`. -/
structure OpcodeRow where
  op : Op
  pattern : Word
  mask : Word
deriving DecidableEq, Repr

/-- The opcode table (30_encoding.md R104). -/
def opcodeTable : List OpcodeRow :=
  [ ⟨.nop,    0x00000000#32, 0xFFFFFFFF#32⟩,
    ⟨.conv,   0x10000000#32, 0xF001FFFF#32⟩,
    ⟨.median, 0x20000000#32, 0xF3E1FFFF#32⟩,
    ⟨.sobel,  0x30000000#32, 0xF3FE1FFF#32⟩,
    ⟨.add,    0x40000000#32, 0xFFFFFFFF#32⟩,
    ⟨.adds,   0x40001000#32, 0xFFFFFFFF#32⟩,
    ⟨.sub,    0x50000000#32, 0xFFFFFFFF#32⟩,
    ⟨.subs,   0x50001000#32, 0xFFFFFFFF#32⟩,
    ⟨.mul,    0x60000000#32, 0xFFFFFFFF#32⟩,
    ⟨.muls,   0x60001000#32, 0xFFFFFFFF#32⟩,
    ⟨.div,    0x70000000#32, 0xFFFFFFFF#32⟩,
    ⟨.divs,   0x70001000#32, 0xFFFFFFFF#32⟩,
    ⟨.gamma,  0x80000000#32, 0xFFFFFFFF#32⟩,
    ⟨.gray,   0x90000000#32, 0xFFFFF3FF#32⟩ ]

/-- The word selects the row (R104). -/
def OpcodeRow.selects (r : OpcodeRow) (w : Word) : Bool := decide (w &&& r.mask = r.pattern)

/-- The row a word selects, if any (R103). -/
def selectRow (w : Word) : Option Op :=
  (opcodeTable.find? fun r => r.selects w).map OpcodeRow.op

/-- `OP`, bits 31:28 (R93). -/
def opField (w : Word) : BitVec 4 := w.extractLsb' 28 4
/-- `BP`, bits 27:26 (R94). -/
def bpField (w : Word) : BitVec 2 := w.extractLsb' 26 2
/-- `KSEL`, bits 25:22 (R95). -/
def kselField (w : Word) : BitVec 4 := w.extractLsb' 22 4
/-- `NEG`, bit 21 (R96). -/
def negField (w : Word) : Bool := w.getLsbD 21
/-- `SIZE`, bits 20:17 (R97). -/
def sizeField (w : Word) : BitVec 4 := w.extractLsb' 17 4
/-- `ANGLES`, bits 16:13 (R98). -/
def anglesField (w : Word) : BitVec 4 := w.extractLsb' 13 4
/-- `MODE`, bits 11:10 (R100). -/
def modeField (w : Word) : BitVec 2 := w.extractLsb' 10 2

/-- The boundary policy with code `b`; 3 is reserved (R94). -/
def BoundaryPolicy.ofCode (b : BitVec 2) : Option BoundaryPolicy :=
  if b = 0#2 then some .zeroFill
  else if b = 1#2 then some .replicate
  else if b = 2#2 then some .reflect
  else none

/-- The kernel with code `b`; 9 to 15 are reserved (R95). -/
def KernelSel.ofCode (b : BitVec 4) : Option KernelSel :=
  if b = 0#4 then some .ident
  else if b = 1#4 then some .mean
  else if b = 2#4 then some .gauss
  else if b = 3#4 then some .sharpen
  else if b = 4#4 then some .sobel0
  else if b = 5#4 then some .sobel45
  else if b = 6#4 then some .sobel90
  else if b = 7#4 then some .sobel135
  else if b = 8#4 then some .kram
  else none

/-- The grayscale mode with code `b` (R100). -/
def GrayMode.ofCode (b : BitVec 2) : GrayMode :=
  if b = 0#2 then .standard
  else if b = 1#2 then .redOnly
  else if b = 2#2 then .greenOnly
  else .blueOnly

/-- A windowed command needs a boundary policy that is not reserved (R102 item 3). -/
def withPolicy (w : Word) (f : BoundaryPolicy → Except DecodeError Instr) : Except DecodeError Instr :=
  match BoundaryPolicy.ofCode (bpField w) with
  | some bp => f bp
  | none => .error .reservedPolicy

/-- The command of a word that selected row `op` (R103). -/
def decodeRow (op : Op) (w : Word) : Except DecodeError Instr :=
  match op with
  | .nop => .ok .nop
  | .conv => withPolicy w fun bp =>
      match KernelSel.ofCode (kselField w) with
      | some ksel => .ok (.conv bp ksel (negField w) (sizeField w).toNat)
      | none => .error .reservedKernel
  | .median => withPolicy w fun bp => .ok (.median bp (sizeField w).toInt)
  | .sobel => withPolicy w fun bp => .ok (.sobel bp (anglesField w))
  | .add => .ok .add
  | .adds => .ok .adds
  | .sub => .ok .sub
  | .subs => .ok .subs
  | .mul => .ok .mul
  | .muls => .ok .muls
  | .div => .ok .div
  | .divs => .ok .divs
  | .gamma => .ok .gamma
  | .gray => .ok (.gray (GrayMode.ofCode (modeField w)))

/-- Decoding, a total function on words (R103). -/
def decode (w : Word) : Except DecodeError Instr :=
  match selectRow w with
  | some op => decodeRow op w
  | none => if 10 ≤ (opField w).toNat then .error .reservedOpcode else .error .strayBit

/-! ### The encoder -/

/-- The code of a boundary policy (R94). -/
def BoundaryPolicy.code : BoundaryPolicy → BitVec 2
  | .zeroFill => 0#2
  | .replicate => 1#2
  | .reflect => 2#2

/-- The code of a kernel (R95). -/
def KernelSel.code : KernelSel → BitVec 4
  | .ident => 0#4
  | .mean => 1#4
  | .gauss => 2#4
  | .sharpen => 3#4
  | .sobel0 => 4#4
  | .sobel45 => 5#4
  | .sobel90 => 6#4
  | .sobel135 => 7#4
  | .kram => 8#4

/-- The code of a grayscale mode (R100). -/
def GrayMode.code : GrayMode → BitVec 2
  | .standard => 0#2
  | .redOnly => 1#2
  | .greenOnly => 2#2
  | .blueOnly => 3#2

/-- The master layout (R91), from bit 31 down: `OP`, `BP`, `KSEL`, `NEG`, `SIZE`, `ANGLES`, `SC`, `MODE`, ten zeros. -/
def assembleWord (op : BitVec 4) (bp : BitVec 2) (ksel : BitVec 4) (neg : Bool) (size angles : BitVec 4)
    (sc : Bool) (mode : BitVec 2) : Word :=
  op ++ bp ++ ksel ++ BitVec.ofBool neg ++ size ++ angles ++ BitVec.ofBool sc ++ mode ++ 0#10

/-- The word of a command (R91 to R100). Of a term that is not well formed it is the word of the number's low four
bits (log entry 15). -/
def encode (i : Instr) : Word :=
  match i with
  | .nop => assembleWord 0#4 0#2 0#4 false 0#4 0#4 false 0#2
  | .conv bp ksel neg kside => assembleWord 1#4 bp.code ksel.code neg (BitVec.ofNat 4 kside) 0#4 false 0#2
  | .median bp radius => assembleWord 2#4 bp.code 0#4 false (BitVec.ofInt 4 radius) 0#4 false 0#2
  | .sobel bp angles => assembleWord 3#4 bp.code 0#4 false 0#4 angles false 0#2
  | .add => assembleWord 4#4 0#2 0#4 false 0#4 0#4 false 0#2
  | .adds => assembleWord 4#4 0#2 0#4 false 0#4 0#4 true 0#2
  | .sub => assembleWord 5#4 0#2 0#4 false 0#4 0#4 false 0#2
  | .subs => assembleWord 5#4 0#2 0#4 false 0#4 0#4 true 0#2
  | .mul => assembleWord 6#4 0#2 0#4 false 0#4 0#4 false 0#2
  | .muls => assembleWord 6#4 0#2 0#4 false 0#4 0#4 true 0#2
  | .div => assembleWord 7#4 0#2 0#4 false 0#4 0#4 false 0#2
  | .divs => assembleWord 7#4 0#2 0#4 false 0#4 0#4 true 0#2
  | .gamma => assembleWord 8#4 0#2 0#4 false 0#4 0#4 false 0#2
  | .gray mode => assembleWord 9#4 0#2 0#4 false 0#4 0#4 false mode.code

/-- The instruction the decoder reads from an `nbits`-bit table word `w`: WCE has one length, 32 bits (R90), and the
bits above `nbits` are 0. -/
def decodeTableWord (nbits w : Nat) : Option Instr :=
  match decode (BitVec.ofNat 32 (w % 2 ^ nbits)) with
  | .ok i => some i
  | .error _ => none

/-- The row of the opcode table that stands for a command (R104). -/
def Instr.op (i : Instr) : Op :=
  match i with
  | .nop => .nop
  | .conv _ _ _ _ => .conv
  | .median _ _ => .median
  | .sobel _ _ => .sobel
  | .add => .add
  | .adds => .adds
  | .sub => .sub
  | .subs => .subs
  | .mul => .mul
  | .muls => .muls
  | .div => .div
  | .divs => .divs
  | .gamma => .gamma
  | .gray _ => .gray

/-! ### Pseudo-instructions and the assembler's spelling -/

/-- The Sobel table of an angle, and whether it is negated: the rotated counterparts negate the table of the angle less
180° (R107). -/
def RotatedAngle.table : RotatedAngle → KernelSel × Bool
  | .a0 => (.sobel0, false)
  | .a45 => (.sobel45, false)
  | .a90 => (.sobel90, false)
  | .a135 => (.sobel135, false)
  | .a180 => (.sobel0, true)
  | .a225 => (.sobel45, true)
  | .a270 => (.sobel90, true)
  | .a315 => (.sobel135, true)

/-- The command a pseudo-instruction stands for (R107). -/
def Pseudo.expand (p : Pseudo) : Instr :=
  match p with
  | .ident bp k => .conv bp .ident false k
  | .mean bp k => .conv bp .mean false k
  | .gauss bp k => .conv bp .gauss false k
  | .sharpen bp k => .conv bp .sharpen false k
  | .sobelk bp a => .conv bp a.table.1 a.table.2 3

/-- `<bp>` of R106. -/
def BoundaryPolicy.asm : BoundaryPolicy → String
  | .zeroFill => ".zero"
  | .replicate => ".rep"
  | .reflect => ".refl"

/-- `<kernel>` of R106. -/
def KernelSel.asm : KernelSel → String
  | .ident => "ident"
  | .mean => "mean"
  | .gauss => "gauss"
  | .sharpen => "sharpen"
  | .sobel0 => "sobel0"
  | .sobel45 => "sobel45"
  | .sobel90 => "sobel90"
  | .sobel135 => "sobel135"
  | .kram => "kram"

/-- `<mode>` of R106. -/
def GrayMode.asm : GrayMode → String
  | .standard => ".std"
  | .redOnly => ".r"
  | .greenOnly => ".g"
  | .blueOnly => ".b"

/-- The angles of a set, ascending, as R106 spells them. -/
def angleNames (angles : BitVec 4) : List String :=
  (if angles.getLsbD 0 then ["0"] else []) ++ (if angles.getLsbD 1 then ["45"] else []) ++
  (if angles.getLsbD 2 then ["90"] else []) ++ (if angles.getLsbD 3 then ["135"] else [])

/-- A command in the assembler syntax of R106: the mnemonic with its suffix, then its operands in order. -/
def Instr.asm (i : Instr) : String × List String :=
  match i with
  | .nop => ("nop", [])
  | .conv bp ksel neg kside =>
      ("conv" ++ bp.asm, [ksel.asm, toString kside] ++ (if neg then ["neg"] else []))
  | .median bp radius => ("median" ++ bp.asm, [toString radius])
  | .sobel bp angles => ("sobel" ++ bp.asm, if angles = 0#4 then ["none"] else angleNames angles)
  | .add => ("add", [])
  | .adds => ("adds", [])
  | .sub => ("sub", [])
  | .subs => ("subs", [])
  | .mul => ("mul", [])
  | .muls => ("muls", [])
  | .div => ("div", [])
  | .divs => ("divs", [])
  | .gamma => ("gamma", [])
  | .gray mode => ("gray" ++ mode.asm, [])

end Sys2Proof
end

