-- ==== Sys2Proof/Config.lean ====
section
/-! DEFINITION. What the specification fixes for this hardware (00_scope.md R7) and what it leaves open. An open
value is a constant WITHOUT a body: no proof can see which value it has, so a claim that holds, holds for
every value of it. -/

namespace Sys2Proof

/-- `MAX_R` (R7): the largest window radius. -/
def Config.maxRadius : Nat := 3

/-- `KMAX` (R7): the largest kernel side, `2*MAX_R + 1`. -/
def Config.maxSide : Nat := 7

/-- PMEM has `2^PMEM_LOG2` = `2^24` bytes, addresses `0 .. 2^24-1` (R7, 10_state.md R43). -/
def Config.pmemSize : Nat := 16777216

/-- The value that a PMEM byte no one has written since power-on holds: unspecified, in 0..255, and stable between
reads (70_reset_and_hazards.md R331, 93_implementation_defined.md U9). A free value of the address.
DESIGN CHOICE (safe, log entry 3). -/
opaque Config.powerOnByte : Nat → Byte

/-- The byte an aborted command leaves at an address of its destination range: unspecified, each byte
independently (70_reset_and_hazards.md R333, U10). The first argument is the number of the draw
(`State.fresh`), the second the address. DESIGN CHOICE (safe, log entry 4). -/
opaque Config.abortedByte : Nat → Nat → Byte

/-- The data a refused register read returns, which the host must not use: any value (20_memory.md R68, U11).
The argument is the number of the draw. DESIGN CHOICE (safe, log entry 5). -/
opaque Config.refusedWord : Nat → Word

/-- The data a refused pixel read returns: any value (20_memory.md R68, U11). DESIGN CHOICE (safe, log entry 5). -/
opaque Config.refusedByte : Nat → Byte

/-- `REG_PORT_BASE` (20_memory.md R77, U18): where the platform places the register port; no rule depends on it.
DESIGN CHOICE (safe, log entry 14). -/
opaque Config.regPortBase : Nat

/-- `PIX_PORT_BASE` (20_memory.md R77, U18): where the platform places the pixel port; no rule depends on it.
DESIGN CHOICE (safe, log entry 14). -/
opaque Config.pixPortBase : Nat

end Sys2Proof
end

