-- ==== Sys2Proof/Machine/State.lean ====
section
/-! DEFINITION. The state of WCE as plain data (10_state.md R20): every register the specification names, field by
field at the width it implements, the kernel RAM, the pixel memory, and three fields of the model's own (`turns`,
`resp`, `fresh`). Constants (`ID`, `CAP`, `KROM`, `KROMDIV`) are no fields (log entry 10). -/

namespace Sys2Proof.Machine

/-- Why a command ends with a fault: the cause codes 1 to 12 (60_exceptions.md R291). Code 13 is no command fault. -/
inductive Cause where
  | invalidRadius            -- 1, MEDIAN
  | kernelSizeMismatch       -- 2, CONV
  | shapeMismatch            -- 3, ADD, SUB, MUL, DIV
  | invalidGamma             -- 4, GAMMA
  | emptyAngleSet            -- 5, SOBEL
  | unsupportedChannelCount  -- 6, GRAY
  | illegalCommand           -- 7, an illegal word
  | unsupportedSize          -- 8, CONV, MEDIAN
  | invalidShape             -- 9, every command but NOP
  | addressRange             -- 10, every command but NOP
  | bufferOverlap            -- 11, every command but NOP
  | invalidDivisor           -- 12, CONV with the kernel of KRAM
deriving DecidableEq, Repr

/-- The descriptor registers of one source (10_state.md R32 to R34): `SRCn_BASE.ADDR`, `SRCn_DIM.HEIGHT`,
`SRCn_DIM.WIDTH`, `SRCn_FMT.CHANNELS`. -/
structure SourceRegs where
  base : BitVec 24
  height : BitVec 16
  width : BitVec 16
  channels : BitVec 2
deriving DecidableEq, Repr

/-- Pixel memory (10_state.md R43) as the bytes written since power-on, addresses strictly rising (`Memory.wf`). An
address it does not list has no known value (70_reset_and_hazards.md R331). -/
abbrev Memory := List Host.Cell

/-- One event of the total order of 20_memory.md R73 that is still to come: a host access at one of the two ports
(R60; widths in bits), the reset input (70_reset_and_hazards.md R330), or the engine's turn, at which a running
command completes (60_exceptions.md R300). DEDUCED (safe, log entry 1). -/
inductive Turn where
  | regRead (width off : Nat)
  | regWrite (width off : Nat) (v : Word)
  | pixRead (width addr : Nat)
  | pixWrite (width addr : Nat) (b : Byte)
  | hardReset
  | engine
deriving DecidableEq, Repr

/-- The response of a host access (20_memory.md R60, R68): `ok`, with data for a read, or `err`; the data of a refused
read is a free value. -/
inductive Response where
  | none
  | okWrite
  | okWord (data : Word)
  | okByte (data : Byte)
  | errWrite
  | errWord (data : Word)
  | errByte (data : Byte)
deriving DecidableEq, Repr

/-- The whole state (10_state.md R20). -/
structure State where
  /-- `CTRL.IE_DONE` (R24). -/
  ieDone : Bool
  /-- `CTRL.IE_ERR` (R24). -/
  ieErr : Bool
  /-- `STATUS.BUSY` (R25). -/
  busy : Bool
  /-- `STATUS.DONE` (R25). -/
  done : Bool
  /-- `STATUS.ERR` (R25). -/
  err : Bool
  /-- `CAUSE.CODE` (R26). -/
  cause : BitVec 5
  /-- `ESTICKY`, bits 13:0; bit 0 is not implemented (R27). -/
  esticky : BitVec 14
  /-- `CMD` (R28). -/
  cmd : Word
  /-- `SRC0_BASE`, `SRC0_DIM`, `SRC0_FMT` (R32 to R34). -/
  src0 : SourceRegs
  /-- `SRC1_BASE`, `SRC1_DIM`, `SRC1_FMT` (R32 to R34). -/
  src1 : SourceRegs
  /-- `DST_BASE.ADDR` (R35). -/
  dstBase : BitVec 24
  /-- `SCALAR.S` (R36). -/
  scalar : BitVec 24
  /-- `GAMMA.G` (R37). -/
  gamma : BitVec 16
  /-- `KDIV.D` (R38). -/
  kdiv : BitVec 24
  /-- `KRAM[0..48]` (R40). -/
  kram : Vector (BitVec 16) 49
  /-- `PMEM` (R43). -/
  pmem : Memory
  /-- The model's own: what is still to come, first event first (20_memory.md R73, 40_common_execute.md R122). -/
  turns : List Turn
  /-- The model's own: the response of the most recent host access. -/
  resp : Response
  /-- The model's own: how many free values have been drawn. -/
  fresh : Nat
deriving DecidableEq, Repr

/-- Why the machine stops with a fault: for no reason. A command fault is a completion with a cause, which is a next
state, and nothing in WCE is undefined or stuck (60_exceptions.md R290; 93_implementation_defined.md part 2), so
no constructor exists and nobody raises one (safe and exact). -/
inductive Fault where
deriving DecidableEq, Repr

/-- Why the machine refuses. -/
inductive Refusal where
  /-- A command without a meaning yet, named by its mnemonic; raised only by `exec`'s own arms (safe). No arm raises it:
  every command has its meaning. -/
  | notModelled (mnemonic : String)
deriving DecidableEq, Repr

/-- The machine right after power-on reset (70_reset_and_hazards.md R330, R331, R334): every register at the value of
10_state.md R21, the engine idle, no PMEM byte known. `turns`, `resp`, `fresh`: DESIGN CHOICE (log entries 1, 7, 6). -/
def State.reset : State where
  ieDone := false
  ieErr := false
  busy := false
  done := false
  err := false
  cause := 0#5
  esticky := 0#14
  cmd := 0x00000000#32
  src0 := ⟨0#24, 0#16, 0#16, 0#2⟩
  src1 := ⟨0#24, 0#16, 0#16, 0#2⟩
  dstBase := 0#24
  scalar := 0#24
  gamma := 0x0100#16
  kdiv := 0x000001#24
  kram := Vector.replicate 49 0#16
  pmem := []
  turns := []
  resp := .none
  fresh := 0

end Sys2Proof.Machine
end

