-- ==== Sys2Proof/Machine/Ops.lean ====
section
/-! DEFINITION. The named operations every command shares: pixel memory, the clip and rounding unit
(40_common_execute.md R130 to R133), launch (R121) and completion (60_exceptions.md R300), which is how WCE takes
an exception: there is no vector, no saved state and no return instruction (R300, R302); recovery is the host's,
through the write-1-to-clear registers (Flags.lean) and the next launch. -/

namespace Sys2Proof.Machine

open Host (Outcome)

/-! ### Pixel memory -/

/-- The canonical form: addresses strictly rising and inside PMEM (10_state.md R43). An unlisted address has no known
value, so no entry can repeat it (log entry 3). -/
abbrev Memory.wf (m : Memory) : Prop :=
  m.Pairwise (fun p q => p.1 < q.1) ∧ ∀ p ∈ m, p.1 < Config.pmemSize

/-- The byte written at an address, if one has been since power-on. -/
def Memory.value? (m : Memory) (a : Nat) : Option Byte :=
  match m with
  | [] => none
  | (k, b) :: rest => if k = a then some b else Memory.value? rest a

/-- `PMEM[a]` (10_state.md R43; `MemRead(a, 1)` of 00_scope.md R12): the byte written there, or the unspecified power-on
value of that address (70_reset_and_hazards.md R331). -/
def Memory.read (m : Memory) (a : Nat) : Byte :=
  match Memory.value? m a with
  | some b => b
  | none => Config.powerOnByte a

/-- `MemWrite(a, 1, b)` (00_scope.md R12), keeping the canonical form. -/
def Memory.put (m : Memory) (a : Nat) (b : Byte) : Memory :=
  match m with
  | [] => [(a, b)]
  | (k, v) :: rest =>
    if a < k then (a, b) :: (k, v) :: rest
    else if a = k then (a, b) :: rest
    else (k, v) :: Memory.put rest a b

/-- The bytes `f 0, …, f (n-1)` written from address `a` up. -/
def Memory.fill (m : Memory) (a n : Nat) (f : Nat → Byte) : Memory :=
  match n with
  | 0 => m
  | n + 1 => Memory.put (Memory.fill m a n f) (a + n) (f n)

/-! ### The clip and rounding unit -/

/-- `clip` (40_common_execute.md R130). -/
def clip (v : Int) : Nat :=
  if v < 0 then 0 else if v > 255 then 255 else v.toNat

/-- `rne_div` for a positive divisor (40_common_execute.md R131): `/` rounds toward minus infinity there. -/
def rneDivPos (n d : Int) : Int :=
  let q := n / d
  let m := n - q * d
  if 2 * m < d then q
  else if 2 * m > d then q + 1
  else if q % 2 = 0 then q
  else q + 1

/-- `rne_div`, for `d ≠ 0` (40_common_execute.md R131): the nearest integer to `n/d`, ties to even. -/
def rneDiv (n d : Int) : Int :=
  if d < 0 then rneDivPos (-n) (-d) else rneDivPos n d

/-- The square root bit by bit: from `acc`, add each power of two below `2^b` that keeps the square at most `s`. -/
def isqrtBits (s : Nat) : Nat → Nat → Nat
  | 0, acc => acc
  | b + 1, acc => isqrtBits s b (if (acc + 2 ^ b) * (acc + 2 ^ b) ≤ s then acc + 2 ^ b else acc)

/-- `isqrt`: the largest `n` with `n*n ≤ s` (40_common_execute.md R133). -/
def isqrt (s : Nat) : Nat := isqrtBits s (s.log2 / 2 + 1) 0

/-- `rne_sqrt` (40_common_execute.md R133): the nearest integer to the square root of `s`. -/
def rneSqrt (s : Nat) : Nat :=
  if s - isqrt s * isqrt s > isqrt s then isqrt s + 1 else isqrt s

/-! ### Launch and completion -/

/-- The code of a cause (60_exceptions.md R291). -/
def Cause.code : Cause → BitVec 5
  | .invalidRadius => 1#5
  | .kernelSizeMismatch => 2#5
  | .shapeMismatch => 3#5
  | .invalidGamma => 4#5
  | .emptyAngleSet => 5#5
  | .unsupportedChannelCount => 6#5
  | .illegalCommand => 7#5
  | .unsupportedSize => 8#5
  | .invalidShape => 9#5
  | .addressRange => 10#5
  | .bufferOverlap => 11#5
  | .invalidDivisor => 12#5

/-- Launch (40_common_execute.md R121): what an accepted write of `w` to `CMD` does at once. -/
def State.launch (s : State) (w : Word) : State :=
  { s with cmd := w, done := false, err := false, cause := 0#5, busy := true }

/-- Completion with a code (60_exceptions.md R300). -/
def State.complete (s : State) (code : BitVec 5) : State :=
  { s with
    cause := code
    err := if code = 0#5 then s.err else true
    esticky := if code = 0#5 then s.esticky else s.esticky ||| (1#14 <<< code.toNat)
    done := true
    busy := false }

/-- `raise` (00_scope.md R12): end the command with a fault. No PMEM byte is written (60_exceptions.md R301). -/
def State.raise (s : State) (c : Cause) : State := s.complete c.code

/-- An illegal word completes with IllegalCommand and does nothing else (60_exceptions.md R293). -/
def State.rejectWord (s : State) : State := s.raise .illegalCommand

/-- A pixel buffer: base address, height, width, channels (20_memory.md R61). -/
structure Buffer where
  base : Nat
  h : Nat
  w : Nat
  c : Nat
deriving DecidableEq, Repr

/-- The bytes a buffer occupies (20_memory.md R61). -/
def Buffer.size (b : Buffer) : Nat := b.h * b.w * b.c

/-- What a command comes to, a function of the state at launch (40_common_execute.md R122): a fault, a completion
without output (NOP), or a destination buffer with the value of each element (R124). -/
inductive CommandResult where
  | fault (c : Cause)
  | noOutput
  | output (dst : Buffer) (out : Nat → Nat → Nat → Nat)

/-- The first check that fails determines the cause; later checks are not made (60_exceptions.md R292). A check is a
failure condition with its cause. -/
def firstFailure : List (Bool × Cause) → Option Cause
  | [] => none
  | (failed, c) :: rest => if failed then some c else firstFailure rest

/-- A command whose checks are made, in their order, before anything is written (60_exceptions.md R292). -/
def checked (checks : List (Bool × Cause)) (r : CommandResult) : CommandResult :=
  match firstFailure checks with
  | some c => .fault c
  | none => r

/-- The bytes of an output, in the row-major, channel-interleaved order of 20_memory.md R62: element `(y, x, c)` is byte
`(y*W + x)*C + c`. -/
def outputByte (dst : Buffer) (out : Nat → Nat → Nat → Nat) (i : Nat) : Byte :=
  BitVec.ofNat 8 (out (i / dst.c / dst.w) (i / dst.c % dst.w) (i % dst.c))

/-- The output traversal (40_common_execute.md R124): every destination byte is written. -/
def Memory.store (m : Memory) (dst : Buffer) (out : Nat → Nat → Nat → Nat) : Memory :=
  Memory.fill m dst.base dst.size (outputByte dst out)

/-- The state at completion (40_common_execute.md R122). -/
def State.finish (s : State) (r : CommandResult) : State :=
  match r with
  | .fault c => s.raise c
  | .noOutput => s.complete 0#5
  | .output dst out => { s with pmem := Memory.store s.pmem dst out }.complete 0#5

/-- Every command completes (40_common_execute.md R123): its outcome is a next state, fault or not. -/
def finishCommand (s : State) (r : CommandResult) : Outcome State Fault Refusal := .next (s.finish r)

end Sys2Proof.Machine
end

