-- ==== Sys2Proof/Machine/Flags.lean ====
section
/-! DEFINITION. The flags of WCE (10_state.md R44): `STATUS`, `CAUSE`, `ESTICKY`, `CTRL` as the words the host sees,
their write-1-to-clear rules (R24 to R27), the sticky bit of a refused access (20_memory.md R68), and the interrupt
output (60_exceptions.md R305). The flags that launch and completion write stand in Ops.lean. -/

namespace Sys2Proof.Machine

/-- A word with bit 0 = `b0`, bit 1 = `b1`, bit 2 = `b2` and every other bit 0. -/
def bitsWord (b0 b1 b2 : Bool) : Word :=
  (BitVec.ofBool b2 ++ BitVec.ofBool b1 ++ BitVec.ofBool b0).setWidth 32

/-- `CTRL` as read: bits 0 and 1; bits 30:2 and `SRST` read 0 (10_state.md R24). -/
def State.ctrlWord (s : State) : Word := bitsWord s.ieDone s.ieErr false

/-- `STATUS` as read: `BUSY`, `DONE`, `ERR`; bits 31:3 read 0 (10_state.md R25). -/
def State.statusWord (s : State) : Word := bitsWord s.busy s.done s.err

/-- `CAUSE` as read: `CODE` in bits 4:0; bits 31:5 read 0 (10_state.md R26). -/
def State.causeWord (s : State) : Word := s.cause.setWidth 32

/-- The bits of `ESTICKY` that exist: 1 to 13 (10_state.md R27). -/
def estickyMask : BitVec 14 := 0x3FFE#14

/-- `ESTICKY` as read: bits 0 and 31:14 read 0 (10_state.md R27). -/
def State.estickyWord (s : State) : Word := (s.esticky &&& estickyMask).setWidth 32

/-- A host write to `STATUS` clears each of `DONE`, `ERR` whose written bit is 1; bit 0 is ignored (10_state.md R25). -/
def State.writeStatus (s : State) (v : Word) : State :=
  { s with done := s.done && !v.getLsbD 1, err := s.err && !v.getLsbD 2 }

/-- A host write to `ESTICKY` clears the bits written 1 (10_state.md R27). -/
def State.writeEsticky (s : State) (v : Word) : State :=
  { s with esticky := s.esticky &&& ~~~(v.setWidth 14) }

/-- A host write to `CTRL` without `SRST` sets the two enables; bits 30:2 are ignored (10_state.md R24). -/
def State.writeEnables (s : State) (v : Word) : State :=
  { s with ieDone := v.getLsbD 0, ieErr := v.getLsbD 1 }

/-- A refused access sets `ESTICKY` bit 13, HostAccessRefused, and changes nothing else (20_memory.md R68). -/
def State.setRefused (s : State) : State :=
  { s with esticky := s.esticky ||| (1#14 <<< 13) }

/-- The interrupt output, a pure function of the registers (60_exceptions.md R305). -/
def State.irq (s : State) : Bool := (s.done && s.ieDone) || (s.err && s.ieErr)

end Sys2Proof.Machine
end

