-- ==== Sys2Proof/Machine/Operands.lean ====
section
/-! DEFINITION. The operands of a command, read from the registers at launch (30_encoding.md R101; 10_state.md R31 to
R40): buffers and their elements (20_memory.md R61 to R63), the scalar, gamma, the host's kernel; and the shape and
address checks on buffers (60_exceptions.md R295, R296). -/

namespace Sys2Proof.Machine

/-! ### Buffers -/

/-- The buffer a source's registers describe (10_state.md R32 to R34). -/
def SourceRegs.buffer (r : SourceRegs) : Buffer :=
  ⟨r.base.toNat, r.height.toNat, r.width.toNat, r.channels.toNat⟩

/-- Source 0, `(B0, H, W, C)` (40_common_execute.md R124). -/
def State.source0 (s : State) : Buffer := s.src0.buffer

/-- Source 1, `(B1, H1, W1, C1)` (46_arith.md R251). -/
def State.source1 (s : State) : Buffer := s.src1.buffer

/-- The destination of every command but GRAY: `(DST, H, W, C)`, the shape of source 0 (10_state.md R35). -/
def State.dest (s : State) : Buffer := { s.source0 with base := s.dstBase.toNat }

/-- The destination of GRAY: `(DST, H, W, 1)` (47_gray.md R281). -/
def State.destGray (s : State) : Buffer := { s.source0 with base := s.dstBase.toNat, c := 1 }

/-- `addr(B, H, W, C, y, x, c)` (20_memory.md R62). -/
def Buffer.addr (b : Buffer) (y x c : Nat) : Nat := b.base + (y * b.w + x) * b.c + c

/-- `pix(B, H, W, C, y, x, c)` (20_memory.md R62), an intensity in 0..255. -/
def pix (m : Memory) (b : Buffer) (y x c : Nat) : Nat := (Memory.read m (b.addr y x c)).toNat

/-- The address lies in the buffer's range (20_memory.md R61). -/
def Buffer.holds (b : Buffer) (a : Nat) : Bool := decide (b.base ≤ a) && decide (a < b.base + b.size)

/-- The descriptor is valid: no empty side, one or three channels (60_exceptions.md R295). -/
def Buffer.validShape (b : Buffer) : Bool :=
  decide (1 ≤ b.h) && decide (1 ≤ b.w) && (decide (b.c = 1) || decide (b.c = 3))

/-- The two buffers have the same height, width and channels (46_arith.md R251). -/
def Buffer.sameShape (a b : Buffer) : Bool :=
  decide (a.h = b.h) && decide (a.w = b.w) && decide (a.c = b.c)

/-- The buffer fits PMEM, computed without wrap (20_memory.md R63). -/
def Buffer.fits (b : Buffer) : Bool := decide (b.base + b.size ≤ Config.pmemSize)

/-- The two ranges share at least one byte address (20_memory.md R63). -/
def Buffer.overlaps (a b : Buffer) : Bool :=
  decide (max a.base b.base < min (a.base + a.size) (b.base + b.size))

/-! ### Checks on buffers -/

/-- InvalidShape (60_exceptions.md R295). -/
def shapeCheck (b : Buffer) : Bool × Cause := (!b.validShape, .invalidShape)

/-- AddressRange (60_exceptions.md R296). -/
def rangeCheck (b : Buffer) : Bool × Cause := (!b.fits, .addressRange)

/-- The address checks of a command with one source (60_exceptions.md R296). -/
def addressChecks1 (src dst : Buffer) : List (Bool × Cause) :=
  [rangeCheck src, rangeCheck dst, (dst.overlaps src, .bufferOverlap)]

/-- The address checks of a command with two sources (60_exceptions.md R296). -/
def addressChecks2 (src0 src1 dst : Buffer) : List (Bool × Cause) :=
  [rangeCheck src0, rangeCheck src1, rangeCheck dst, (dst.overlaps src0 || dst.overlaps src1, .bufferOverlap)]

/-- The shape and address checks of every command that reads source 0 alone and writes a buffer of its shape: CONV,
MEDIAN, SOBEL, the scalar forms and GAMMA (60_exceptions.md R292 groups 3 and 4). -/
def State.unaryChecks (s : State) : List (Bool × Cause) :=
  shapeCheck s.source0 :: addressChecks1 s.source0 s.dest

/-- The checks of ADD, SUB, MUL, DIV, in order (46_arith.md R251). -/
def State.binaryChecks (s : State) : List (Bool × Cause) :=
  shapeCheck s.source0 :: shapeCheck s.source1 ::
    (!s.source0.sameShape s.source1, .shapeMismatch) ::
    addressChecks2 s.source0 s.source1 s.dest

/-- The checks of GRAY, in order (47_gray.md R281, R283; 60_exceptions.md R292). -/
def State.grayChecks (s : State) : List (Bool × Cause) :=
  shapeCheck s.source0 :: (decide (s.source0.c ≠ 3), .unsupportedChannelCount) ::
    addressChecks1 s.source0 s.destGray

/-! ### Scalar, gamma, the host's kernel -/

/-- `S = sext_24(SCALAR)`, standing for `S/256` (10_state.md R36). -/
def State.scalarValue (s : State) : Int := s.scalar.toInt

/-- `G = sext_16(GAMMA)`, standing for `G/256` (10_state.md R37). -/
def State.gammaValue (s : State) : Int := s.gamma.toInt

/-- `KDIV.D`, unsigned (10_state.md R38). -/
def State.kdivValue (s : State) : Nat := s.kdiv.toNat

/-- `sext_16(KRAM[i])` (10_state.md R40); a command reads entries 0 to 48 only. -/
def State.kramValue (s : State) (i : Nat) : Int := ((s.kram[i]?).getD 0#16).toInt

end Sys2Proof.Machine
end

