-- ==== Sys2Proof/Machine/Arith.lean ====
section
/-! DEFINITION. The pixel-wise saturating arithmetic (46_arith.md): ADD, ADDS, SUB, SUBS, MUL, MULS, DIV, DIVS, GAMMA.
Each output depends on the inputs at the same `(y, x, c)` only; the scalar is always the second operand (R250). -/

namespace Sys2Proof.Machine

open Host (Outcome)

/-! ### The value of one output element -/

/-- ADD (46_arith.md R253). -/
def addPixel (a b : Nat) : Nat := clip ((a : Int) + (b : Int))

/-- ADDS (46_arith.md R254): the exact `a + S/256`, rounded, then clipped. -/
def addsPixel (S : Int) (a : Nat) : Nat := clip (rneDiv (256 * (a : Int) + S) 256)

/-- SUB (46_arith.md R255). -/
def subPixel (a b : Nat) : Nat := clip ((a : Int) - (b : Int))

/-- SUBS (46_arith.md R256). -/
def subsPixel (S : Int) (a : Nat) : Nat := clip (rneDiv (256 * (a : Int) - S) 256)

/-- MUL (46_arith.md R257): the plain product. -/
def mulPixel (a b : Nat) : Nat := clip ((a : Int) * (b : Int))

/-- MULS (46_arith.md R258). -/
def mulsPixel (S : Int) (a : Nat) : Nat := clip (rneDiv ((a : Int) * S) 256)

/-- DIV (46_arith.md R259): `x / 0 := 0`. -/
def divPixel (a b : Nat) : Nat := if b = 0 then 0 else clip (rneDiv (a : Int) (b : Int))

/-- DIVS (46_arith.md R260): `x / 0 := 0`. -/
def divsPixel (S : Int) (a : Nat) : Nat := if S = 0 then 0 else clip (rneDiv (256 * (a : Int)) S)

/-- `gamma_map(p, G)` by its exact integer characterisation (46_arith.md R268): the number of `m` in 0..254 with
`p^G * 510^256 > (2m+1)^256 * 255^G`. -/
def gammaMap (p G : Nat) : Nat :=
  ((List.range 255).filter fun m => decide (p ^ G * 510 ^ 256 > (2 * m + 1) ^ 256 * 255 ^ G)).length

/-- GAMMA (46_arith.md R267). -/
def gammaPixel (G : Int) (a : Nat) : Nat := clip (gammaMap a G.toNat)

/-! ### What the commands come to -/

/-- A buffer-buffer form (46_arith.md R251, R252). -/
def elementwise2 (s : State) (f : Nat → Nat → Nat) : CommandResult :=
  checked s.binaryChecks
    (.output s.dest fun y x c => f (pix s.pmem s.source0 y x c) (pix s.pmem s.source1 y x c))

/-- A form with source 0 alone, after its own parameter checks (46_arith.md R251, R267). -/
def elementwise1 (s : State) (params : List (Bool × Cause)) (f : Nat → Nat) : CommandResult :=
  checked (params ++ s.unaryChecks) (.output s.dest fun y x c => f (pix s.pmem s.source0 y x c))

/-- What ADD comes to (46_arith.md R253). -/
def addResult (s : State) : CommandResult := elementwise2 s addPixel
/-- What ADDS comes to (46_arith.md R254). -/
def addsResult (s : State) : CommandResult := elementwise1 s [] (addsPixel s.scalarValue)
/-- What SUB comes to (46_arith.md R255). -/
def subResult (s : State) : CommandResult := elementwise2 s subPixel
/-- What SUBS comes to (46_arith.md R256). -/
def subsResult (s : State) : CommandResult := elementwise1 s [] (subsPixel s.scalarValue)
/-- What MUL comes to (46_arith.md R257). -/
def mulResult (s : State) : CommandResult := elementwise2 s mulPixel
/-- What MULS comes to (46_arith.md R258). -/
def mulsResult (s : State) : CommandResult := elementwise1 s [] (mulsPixel s.scalarValue)
/-- What DIV comes to (46_arith.md R259). -/
def divResult (s : State) : CommandResult := elementwise2 s divPixel
/-- What DIVS comes to (46_arith.md R260). -/
def divsResult (s : State) : CommandResult := elementwise1 s [] (divsPixel s.scalarValue)

/-- GAMMA checks `G <= 0` first (46_arith.md R267, R270). -/
def gammaResult (s : State) : CommandResult :=
  elementwise1 s [(decide (s.gammaValue ≤ 0), .invalidGamma)] (gammaPixel s.gammaValue)

/-- ADD (46_arith.md R253). -/
def execAdd (s : State) : Outcome State Fault Refusal := finishCommand s (addResult s)
/-- ADDS (46_arith.md R254). -/
def execAdds (s : State) : Outcome State Fault Refusal := finishCommand s (addsResult s)
/-- SUB (46_arith.md R255). -/
def execSub (s : State) : Outcome State Fault Refusal := finishCommand s (subResult s)
/-- SUBS (46_arith.md R256). -/
def execSubs (s : State) : Outcome State Fault Refusal := finishCommand s (subsResult s)
/-- MUL (46_arith.md R257). -/
def execMul (s : State) : Outcome State Fault Refusal := finishCommand s (mulResult s)
/-- MULS (46_arith.md R258). -/
def execMuls (s : State) : Outcome State Fault Refusal := finishCommand s (mulsResult s)
/-- DIV (46_arith.md R259). -/
def execDiv (s : State) : Outcome State Fault Refusal := finishCommand s (divResult s)
/-- DIVS (46_arith.md R260). -/
def execDivs (s : State) : Outcome State Fault Refusal := finishCommand s (divsResult s)
/-- GAMMA (46_arith.md R267). -/
def execGamma (s : State) : Outcome State Fault Refusal := finishCommand s (gammaResult s)

end Sys2Proof.Machine
end

