-- ==== Sys2Proof/Machine/Gray.lean ====
section
/-! DEFINITION. GRAY, the channel reduction (47_gray.md). -/

namespace Sys2Proof.Machine

open Host (Outcome)

/-- The output for a pixel `(R, Gc, Bc)` (47_gray.md R281, R282). -/
def grayPixel (mode : GrayMode) (r g b : Nat) : Nat :=
  match mode with
  | .standard => clip (rneDiv (299 * (r : Int) + 587 * (g : Int) + 114 * (b : Int)) 1000)
  | .redOnly => r
  | .greenOnly => g
  | .blueOnly => b

/-- What GRAY comes to (47_gray.md R281): the source has three channels once the checks have passed (R283). -/
def grayResult (mode : GrayMode) (s : State) : CommandResult :=
  checked s.grayChecks
    (.output s.destGray fun y x _ =>
      grayPixel mode (pix s.pmem s.source0 y x 0) (pix s.pmem s.source0 y x 1) (pix s.pmem s.source0 y x 2))

/-- GRAY (47_gray.md R281). -/
def execGray (mode : GrayMode) (s : State) : Outcome State Fault Refusal := finishCommand s (grayResult mode s)

end Sys2Proof.Machine
end

