-- ==== Sys2Proof/Machine/KernelRom.lean ====
section
/-! DEFINITION. The kernel-weight ROM (44_kernel_rom.md): `KROM`, its divisor directory `KROMDIV`, and the lookup of R203.
The tables are the numbers of R213 and R202, line by line: a model takes the table, not the formula, as the
definition (93_implementation_defined.md U2). The Sobel numbers are marked by the specification itself as general
knowledge (R210, G1): PRESUMED by the specification, log entry 19. -/

namespace Sys2Proof.Machine

/-- `KSEL` = 0, entries 0 to 83 (R201, R204). -/
def kromIdent : List Int :=
  [1, 0, 0, 0, 0, 1, 0, 0, 0, 0, 0, 0] ++
  [0, 0, 0, 0, 0, 0, 0, 0, 0, 0, 1, 0] ++
  [0, 0, 0, 0, 0, 0, 0, 0, 0, 0, 0, 0] ++
  [0, 0, 0, 0, 0, 0, 0, 0, 0, 0, 0, 0] ++
  [0, 0, 0, 0, 0, 0, 0, 0, 0, 0, 0, 1] ++
  [0, 0, 0, 0, 0, 0, 0, 0, 0, 0, 0, 0] ++
  [0, 0, 0, 0, 0, 0, 0, 0, 0, 0, 0, 0]

/-- `KSEL` = 1, entries 84 to 167 (R201, R205). -/
def kromMean : List Int :=
  [1, 1, 1, 1, 1, 1, 1, 1, 1, 1, 1, 1] ++
  [1, 1, 1, 1, 1, 1, 1, 1, 1, 1, 1, 1] ++
  [1, 1, 1, 1, 1, 1, 1, 1, 1, 1, 1, 1] ++
  [1, 1, 1, 1, 1, 1, 1, 1, 1, 1, 1, 1] ++
  [1, 1, 1, 1, 1, 1, 1, 1, 1, 1, 1, 1] ++
  [1, 1, 1, 1, 1, 1, 1, 1, 1, 1, 1, 1] ++
  [1, 1, 1, 1, 1, 1, 1, 1, 1, 1, 1, 1]

/-- `KSEL` = 2, entries 168 to 251 (R201, R206). -/
def kromGauss : List Int :=
  [16384, 300, 2217, 300, 2217, 16384, 2217, 300, 2217, 300, 52, 448] ++
  [920, 448, 52, 448, 3882, 7975, 3882, 448, 920, 7975, 16384, 7975] ++
  [920, 448, 3882, 7975, 3882, 448, 52, 448, 920, 448, 52, 22] ++
  [138, 416, 601, 416, 138, 22, 138, 867, 2611, 3769, 2611, 867] ++
  [138, 416, 2611, 7859, 11347, 7859, 2611, 416, 601, 3769, 11347, 16384] ++
  [11347, 3769, 601, 416, 2611, 7859, 11347, 7859, 2611, 416, 138, 867] ++
  [2611, 3769, 2611, 867, 138, 22, 138, 416, 601, 416, 138, 22]

/-- `KSEL` = 3, entries 252 to 335 (R201, R208). -/
def kromSharpen : List Int :=
  [1, -1, -1, -1, -1, 17, -1, -1, -1, -1, -1, -1] ++
  [-1, -1, -1, -1, -1, -1, -1, -1, -1, -1, 49, -1] ++
  [-1, -1, -1, -1, -1, -1, -1, -1, -1, -1, -1, -1] ++
  [-1, -1, -1, -1, -1, -1, -1, -1, -1, -1, -1, -1] ++
  [-1, -1, -1, -1, -1, -1, -1, -1, -1, -1, -1, 97] ++
  [-1, -1, -1, -1, -1, -1, -1, -1, -1, -1, -1, -1] ++
  [-1, -1, -1, -1, -1, -1, -1, -1, -1, -1, -1, -1]

/-- `KSEL` = 4 to 7, entries 336 to 371 (R201, R210). -/
def kromSobel : List Int :=
  [-1, 0, 1, -2, 0, 2, -1, 0, 1, 0, 1, 2] ++
  [-1, 0, 1, -2, -1, 0, 1, 2, 1, 0, 0, 0] ++
  [-1, -2, -1, 2, 1, 0, 1, 0, -1, 0, -1, -2]

/-- `KROM[0..371]`, signed 16-bit numerators (44_kernel_rom.md R200, R213). -/
def krom : List Int := kromIdent ++ kromMean ++ kromGauss ++ kromSharpen ++ kromSobel

/-- `KROMDIV[0..19]` (44_kernel_rom.md R202). -/
def kromDiv : List Nat :=
  [1, 1, 1, 1] ++ [1, 9, 25, 49] ++ [16384, 26452, 71284, 139564] ++ [1, 9, 25, 49] ++ [1, 1, 1, 1]

/-- `KROM[i]`. No command and no accepted host read reaches an index above 371 (log entry 22). -/
def kromValue (i : Nat) : Int := krom.getD i 0

/-- `KROMDIV[i]`. No command and no accepted host read reaches an index above 19 (log entry 22). -/
def kromDivValue (i : Nat) : Nat := kromDiv.getD i 1

/-- `off(s)` for `s = (k-1)/2` (44_kernel_rom.md R203): where the kernel of side 1, 3, 5, 7 starts in its family. -/
def sideOffset (s : Nat) : Nat :=
  if s = 0 then 0 else if s = 1 then 1 else if s = 2 then 10 else 35

/-- The number of a ROM family or Sobel kernel, its `KSEL` (30_encoding.md R95). -/
def romNumber : KernelSel → Nat
  | .ident => 0
  | .mean => 1
  | .gauss => 2
  | .sharpen => 3
  | .sobel0 => 4
  | .sobel45 => 5
  | .sobel90 => 6
  | .sobel135 => 7
  | .kram => 8

/-- The kernel is one of the four Sobel tables (`KSEL` in 4..7). -/
def isSobelTable (ksel : KernelSel) : Bool := decide (4 ≤ romNumber ksel) && decide (romNumber ksel ≤ 7)

/-- `base` of the lookup (44_kernel_rom.md R203): the index in `KROM` of the kernel's first numerator. -/
def romBase (ksel : KernelSel) (k : Nat) : Nat :=
  if isSobelTable ksel then 336 + 9 * (romNumber ksel - 4) else 84 * romNumber ksel + sideOffset ((k - 1) / 2)

/-- `di` of the lookup (44_kernel_rom.md R203): the index in `KROMDIV` of the kernel's divisor. -/
def romDivIndex (ksel : KernelSel) (k : Nat) : Nat :=
  if isSobelTable ksel then 16 + (romNumber ksel - 4) else 4 * romNumber ksel + (k - 1) / 2

end Sys2Proof.Machine
end

