-- ==== Sys2Proof/Machine/Window.lean ====
section
/-! DEFINITION. The window engine and the boundary-policy logic (41_window_engine.md): `sample` (R152 to R155) and `win`
(R151), shared by CONV, MEDIAN and SOBEL. Channels never mix (R157); every sample is read from the source of the
launch state (R158). -/

namespace Sys2Proof.Machine

/-- `clamp(v, lo, hi)` (00_scope.md R12). -/
def clamp (v lo hi : Int) : Int := if v < lo then lo else if v > hi then hi else v

/-- The coordinate replicate reads: the nearest in `0 .. n-1` (41_window_engine.md R154). -/
def replicateIndex (t : Int) (n : Nat) : Nat := (clamp t 0 ((n : Int) - 1)).toNat

/-- `mirror(t, N)` (41_window_engine.md R155): the edge pixel is repeated, with period `2N`. -/
def mirror (t : Int) (n : Nat) : Nat :=
  if t % (2 * (n : Int)) < (n : Int) then (t % (2 * (n : Int))).toNat
  else (2 * (n : Int) - 1 - t % (2 * (n : Int))).toNat

/-- The coordinate pair lies inside the image. -/
def Buffer.inside (b : Buffer) (yy xx : Int) : Bool :=
  decide (0 ≤ yy) && decide (yy < (b.h : Int)) && decide (0 ≤ xx) && decide (xx < (b.w : Int))

/-- `sample(yy, xx, c)` for any integers `yy`, `xx` (41_window_engine.md R152): zero-fill (R153), replicate (R154), reflect
(R155). -/
def sample (m : Memory) (b : Buffer) (bp : BoundaryPolicy) (yy xx : Int) (c : Nat) : Nat :=
  match bp with
  | .zeroFill => if b.inside yy xx then pix m b yy.toNat xx.toNat c else 0
  | .replicate => pix m b (replicateIndex yy b.h) (replicateIndex xx b.w) c
  | .reflect => pix m b (mirror yy b.h) (mirror xx b.w) c

/-- `win(y, x, c)[i][j] = sample(y + i - r, x + j - r, c)` (41_window_engine.md R151). -/
def win (m : Memory) (b : Buffer) (bp : BoundaryPolicy) (r y x c i j : Nat) : Nat :=
  sample m b bp ((y : Int) + (i : Int) - (r : Int)) ((x : Int) + (j : Int) - (r : Int)) c

/-- The `k*k` samples of a window, row by row. -/
def windowList (k : Nat) (w : Nat → Nat → Nat) : List Nat :=
  (List.range k).flatMap fun i => (List.range k).map fun j => w i j

/-- The sum over a window of a numerator times the sample at the same index, exact (42_linear_filter.md R170 to R172: the
kernel is not flipped). -/
def weightedSum (k : Nat) (n : Nat → Nat → Int) (w : Nat → Nat → Nat) : Int :=
  ((List.range k).map fun i => ((List.range k).map fun j => n i j * (w i j : Int)).sum).sum

end Sys2Proof.Machine
end

