-- ==== Sys2Proof/Machine/Linear.lean ====
section
/-! DEFINITION. CONV, the linear filter and its weighted accumulator (42_linear_filter.md). -/

namespace Sys2Proof.Machine

open Host (Outcome)

/-- The parameter checks of CONV, in order (42_linear_filter.md R173). -/
def convChecks (s : State) (ksel : KernelSel) (kside : Nat) : List (Bool × Cause) :=
  [ (decide (kside % 2 = 0), .kernelSizeMismatch),
    (decide (kside > Config.maxSide), .unsupportedSize),
    (isSobelTable ksel && decide (kside ≠ 3), .unsupportedSize),
    (decide (ksel = .kram) && decide (s.kdivValue = 0), .invalidDivisor) ]

/-- `N0[i][j]` (42_linear_filter.md R174): from KROM, or from KRAM for `KSEL` = 8. -/
def baseNumerator (s : State) (ksel : KernelSel) (k i j : Nat) : Int :=
  if ksel = .kram then s.kramValue (i * k + j) else kromValue (romBase ksel k + i * k + j)

/-- `N[i][j]` (42_linear_filter.md R174): negated exactly when `NEG` = 1. -/
def numerator (s : State) (ksel : KernelSel) (neg : Bool) (k i j : Nat) : Int :=
  if neg then -(baseNumerator s ksel k i j) else baseNumerator s ksel k i j

/-- `D` (42_linear_filter.md R174); never negated. -/
def divisor (s : State) (ksel : KernelSel) (k : Nat) : Nat :=
  if ksel = .kram then s.kdivValue else kromDivValue (romDivIndex ksel k)

/-- `acc` at `(y, x, c)` (42_linear_filter.md R171), exact. -/
def convAcc (s : State) (bp : BoundaryPolicy) (ksel : KernelSel) (neg : Bool) (k y x c : Nat) : Int :=
  weightedSum k (numerator s ksel neg k) (win s.pmem s.source0 bp ((k - 1) / 2) y x c)

/-- `out(y, x, c)` of CONV (42_linear_filter.md R171): one rounding, one clip, after the whole sum. -/
def convOut (s : State) (bp : BoundaryPolicy) (ksel : KernelSel) (neg : Bool) (k y x c : Nat) : Nat :=
  clip (rneDiv (convAcc s bp ksel neg k y x c) (divisor s ksel k))

/-- What CONV comes to (42_linear_filter.md R171): parameters, then shape, then addresses. -/
def convResult (bp : BoundaryPolicy) (ksel : KernelSel) (neg : Bool) (kside : Nat) (s : State) : CommandResult :=
  checked (convChecks s ksel kside ++ s.unaryChecks) (.output s.dest (convOut s bp ksel neg kside))

/-- CONV (42_linear_filter.md R171). -/
def execConv (bp : BoundaryPolicy) (ksel : KernelSel) (neg : Bool) (kside : Nat) (s : State) :
    Outcome State Fault Refusal :=
  finishCommand s (convResult bp ksel neg kside s)

end Sys2Proof.Machine
end

