-- ==== Sys2Proof/Machine/Median.lean ====
section
/-! DEFINITION. MEDIAN, the median sorter (43_median.md). -/

namespace Sys2Proof.Machine

open Host (Outcome)

/-- Insert a value into an ascending list. -/
def insertAscending (v : Nat) : List Nat → List Nat
  | [] => [v]
  | x :: xs => if v ≤ x then v :: x :: xs else x :: insertAscending v xs

/-- `sort`, ascending (43_median.md R190). -/
def sortAscending : List Nat → List Nat
  | [] => []
  | x :: xs => insertAscending x (sortAscending xs)

/-- `median(L) = sort(L)[floor((n-1)/2)]`, for a non-empty list (43_median.md R190). -/
def median (l : List Nat) : Nat := (sortAscending l).getD ((l.length - 1) / 2) 0

/-- The parameter checks of MEDIAN, in order (43_median.md R192). -/
def medianChecks (radius : Int) : List (Bool × Cause) :=
  [ (decide (radius < 0), .invalidRadius),
    (decide (radius > (Config.maxRadius : Int)), .unsupportedSize) ]

/-- `out(y, x, c)` of MEDIAN (43_median.md R191), with `r = RADIUS` and `k = 2r+1`. -/
def medianOut (s : State) (bp : BoundaryPolicy) (r y x c : Nat) : Nat :=
  clip (median (windowList (2 * r + 1) (win s.pmem s.source0 bp r y x c)))

/-- What MEDIAN comes to (43_median.md R191). -/
def medianResult (bp : BoundaryPolicy) (radius : Int) (s : State) : CommandResult :=
  checked (medianChecks radius ++ s.unaryChecks) (.output s.dest (medianOut s bp radius.toNat))

/-- MEDIAN (43_median.md R191). -/
def execMedian (bp : BoundaryPolicy) (radius : Int) (s : State) : Outcome State Fault Refusal :=
  finishCommand s (medianResult bp radius s)

end Sys2Proof.Machine
end

