-- ==== Sys2Proof/Machine/Nop.lean ====
section
/-! DEFINITION. NOP (40_common_execute.md R140). -/

namespace Sys2Proof.Machine

open Host (Outcome)

/-- NOP reads no operand, makes no check beyond decoding and touches no PMEM byte (R140). -/
def nopResult (_s : State) : CommandResult := .noOutput

/-- NOP completes with cause 0 (R140). -/
def execNop (s : State) : Outcome State Fault Refusal := finishCommand s (nopResult s)

end Sys2Proof.Machine
end

