-- ==== Sys2Proof/Machine/Sobel.lean ====
section
/-! DEFINITION. SOBEL, the multi-orientation gradient combiner (45_sobel.md). -/

namespace Sys2Proof.Machine

open Host (Outcome)

/-- The parameter check of SOBEL (45_sobel.md R232). -/
def sobelChecks (angles : BitVec 4) : List (Bool × Cause) :=
  [ (decide (angles = 0#4), .emptyAngleSet) ]

/-- The numerator of base angle `a` (0 = 0°, 1 = 45°, 2 = 90°, 3 = 135°) at row `i`, column `j` (45_sobel.md R231). -/
def sobelNumerator (a i j : Nat) : Int := kromValue (336 + 9 * a + 3 * i + j)

/-- `resp[a]` (45_sobel.md R231, R233): signed, not clipped and not rounded. -/
def sobelResponse (s : State) (bp : BoundaryPolicy) (a y x c : Nat) : Int :=
  weightedSum 3 (sobelNumerator a) (win s.pmem s.source0 bp 1 y x c)

/-- `S`, the sum of the squares of the responses of the selected angles (45_sobel.md R231, R234). -/
def sobelSquares (s : State) (bp : BoundaryPolicy) (angles : BitVec 4) (y x c : Nat) : Int :=
  ((List.range 4).map fun a =>
    if angles.getLsbD a then sobelResponse s bp a y x c * sobelResponse s bp a y x c else 0).sum

/-- `out(y, x, c)` of SOBEL (45_sobel.md R231). -/
def sobelOut (s : State) (bp : BoundaryPolicy) (angles : BitVec 4) (y x c : Nat) : Nat :=
  clip (rneSqrt (sobelSquares s bp angles y x c).toNat)

/-- What SOBEL comes to (45_sobel.md R231). -/
def sobelResult (bp : BoundaryPolicy) (angles : BitVec 4) (s : State) : CommandResult :=
  checked (sobelChecks angles ++ s.unaryChecks) (.output s.dest (sobelOut s bp angles))

/-- SOBEL (45_sobel.md R231). -/
def execSobel (bp : BoundaryPolicy) (angles : BitVec 4) (s : State) : Outcome State Fault Refusal :=
  finishCommand s (sobelResult bp angles s)

end Sys2Proof.Machine
end

