-- ==== Sys2Proof/Machine/Command.lean ====
section
/-! DEFINITION. What a command comes to, for every command (40_common_execute.md R122: `exec(σ, w)` is a fault or the
bytes of the destination), and the reset of WCE with the abort of a running command (70_reset_and_hazards.md R330
to R333), which needs the destination of the command it aborts. -/

namespace Sys2Proof.Machine

/-- What the command comes to in a state (40_common_execute.md R122). -/
def commandResult (i : Instr) (s : State) : CommandResult :=
  match i with
  | .nop => nopResult s
  | .conv bp ksel neg kside => convResult bp ksel neg kside s
  | .median bp radius => medianResult bp radius s
  | .sobel bp angles => sobelResult bp angles s
  | .add => addResult s
  | .adds => addsResult s
  | .sub => subResult s
  | .subs => subsResult s
  | .mul => mulResult s
  | .muls => mulsResult s
  | .div => divResult s
  | .divs => divsResult s
  | .gamma => gammaResult s
  | .gray mode => grayResult mode s

/-- The destination a result writes, if it writes one. -/
def CommandResult.dest? (r : CommandResult) : Option Buffer :=
  match r with
  | .fault _ => none
  | .noOutput => none
  | .output dst _ => some dst

/-- The word the engine executes: the one the host wrote to `CMD` (10_state.md R28); there is no instruction memory and
no fetch (R30). -/
def State.fetchWord (s : State) : Word := s.cmd

/-- The destination range of the running command, if a command is running and would write one. -/
def State.runningDest? (s : State) : Option Buffer :=
  if s.busy then
    match decode s.fetchWord with
    | .ok i => (commandResult i s).dest?
    | .error _ => none
  else none

/-- An aborted command leaves every byte of its destination range unspecified, each independently, and every other byte
as it was; if it would have faulted, nothing changes (70_reset_and_hazards.md R333). -/
def State.abort (s : State) : State :=
  match s.runningDest? with
  | some d =>
    { s with
      pmem := Memory.fill s.pmem d.base d.size (fun i => Config.abortedByte s.fresh (d.base + i))
      fresh := s.fresh + 1 }
  | none => s

/-- Every register, the kernel RAM and the engine at their reset values; PMEM kept (70_reset_and_hazards.md R330, R331).
The model's own fields stay: the schedule, the last response and the counter of free values. -/
def State.resetRegisters (s : State) : State :=
  { State.reset with pmem := s.pmem, turns := s.turns, resp := s.resp, fresh := s.fresh }

/-- A reset of either kind: hardware reset (70_reset_and_hazards.md R330) and soft reset (R332) have exactly the same
effect; a running command is aborted (R333). -/
def State.doReset (s : State) : State := s.abort.resetRegisters

end Sys2Proof.Machine
end

