-- ==== Sys2Proof/Machine/Dispatch.lean ====
section
/-! DEFINITION. `exec`: one arm for each constructor of `Instr`, each a direct call of its meaning. -/

namespace Sys2Proof.Machine

def exec (i : Instr) (s : State) : Host.Outcome State Fault Refusal :=
  match i with
  | .nop => Sys2Proof.Machine.execNop s
  | .conv bp ksel neg kside => Sys2Proof.Machine.execConv bp ksel neg kside s
  | .median bp radius => Sys2Proof.Machine.execMedian bp radius s
  | .sobel bp angles => Sys2Proof.Machine.execSobel bp angles s
  | .add => Sys2Proof.Machine.execAdd s
  | .adds => Sys2Proof.Machine.execAdds s
  | .sub => Sys2Proof.Machine.execSub s
  | .subs => Sys2Proof.Machine.execSubs s
  | .mul => Sys2Proof.Machine.execMul s
  | .muls => Sys2Proof.Machine.execMuls s
  | .div => Sys2Proof.Machine.execDiv s
  | .divs => Sys2Proof.Machine.execDivs s
  | .gamma => Sys2Proof.Machine.execGamma s
  | .gray mode => Sys2Proof.Machine.execGray mode s

end Sys2Proof.Machine
end

