-- ==== Sys2Proof/Machine/Ports.lean ====
section
/-! DEFINITION. The host's two ports (20_memory.md R60): the register map (10_state.md R21), which accesses are accepted
and which refused (20_memory.md R66 to R69), and what each accepted access does. -/

namespace Sys2Proof.Machine

/-- The registers of the map (10_state.md R21). -/
inductive Reg where
  | id
  | cap
  | ctrl
  | status
  | cause
  | esticky
  | cmd
  | src0Base
  | src0Dim
  | src0Fmt
  | src1Base
  | src1Dim
  | src1Fmt
  | dstBase
  | scalar
  | gamma
  | kdiv
  | kram (i : Fin 49)
  | krom (i : Fin 372)
  | kromDiv (i : Fin 20)
deriving DecidableEq, Repr

/-- The offset of a register (10_state.md R21). -/
def Reg.offset : Reg → Nat
  | .id => 0x000
  | .cap => 0x004
  | .ctrl => 0x008
  | .status => 0x00C
  | .cause => 0x010
  | .esticky => 0x014
  | .cmd => 0x018
  | .src0Base => 0x020
  | .src0Dim => 0x024
  | .src0Fmt => 0x028
  | .src1Base => 0x030
  | .src1Dim => 0x034
  | .src1Fmt => 0x038
  | .dstBase => 0x040
  | .scalar => 0x044
  | .gamma => 0x048
  | .kdiv => 0x04C
  | .kram i => 0x100 + 4 * i.val
  | .krom i => 0x800 + 4 * i.val
  | .kromDiv i => 0xE00 + 4 * i.val

/-- The registers below offset 0x100 (10_state.md R21). -/
def lowRegAt (off : Nat) : Option Reg :=
  if off = 0x000 then some .id
  else if off = 0x004 then some .cap
  else if off = 0x008 then some .ctrl
  else if off = 0x00C then some .status
  else if off = 0x010 then some .cause
  else if off = 0x014 then some .esticky
  else if off = 0x018 then some .cmd
  else if off = 0x020 then some .src0Base
  else if off = 0x024 then some .src0Dim
  else if off = 0x028 then some .src0Fmt
  else if off = 0x030 then some .src1Base
  else if off = 0x034 then some .src1Dim
  else if off = 0x038 then some .src1Fmt
  else if off = 0x040 then some .dstBase
  else if off = 0x044 then some .scalar
  else if off = 0x048 then some .gamma
  else if off = 0x04C then some .kdiv
  else none

/-- The register at an offset; none where the offset is unmapped or no multiple of 4 (10_state.md R21; 20_memory.md R64). -/
def regAt (off : Nat) : Option Reg :=
  if off % 4 ≠ 0 then none
  else if off < 0x100 then lowRegAt off
  else if off < 0x800 then
    if h : (off - 0x100) / 4 < 49 then some (.kram ⟨(off - 0x100) / 4, h⟩) else none
  else if off < 0xE00 then
    if h : (off - 0x800) / 4 < 372 then some (.krom ⟨(off - 0x800) / 4, h⟩) else none
  else
    if h : (off - 0xE00) / 4 < 20 then some (.kromDiv ⟨(off - 0xE00) / 4, h⟩) else none

/-- Read-only: a write is refused (20_memory.md R68 item 3). -/
def Reg.readOnly : Reg → Bool
  | .id => true
  | .cap => true
  | .cause => true
  | .krom _ => true
  | .kromDiv _ => true
  | _ => false

/-- Writable also while a command runs (20_memory.md R67). -/
def Reg.writableBusy : Reg → Bool
  | .ctrl => true
  | .status => true
  | .esticky => true
  | _ => false

/-- The word a register reads as; fields outside the named ones read 0 (10_state.md R22 to R42). -/
def State.regWord (s : State) (r : Reg) : Word :=
  match r with
  | .id => 0x57434531#32
  | .cap => 0x00031803#32
  | .ctrl => s.ctrlWord
  | .status => s.statusWord
  | .cause => s.causeWord
  | .esticky => s.estickyWord
  | .cmd => s.cmd
  | .src0Base => s.src0.base.setWidth 32
  | .src0Dim => s.src0.height ++ s.src0.width
  | .src0Fmt => s.src0.channels.setWidth 32
  | .src1Base => s.src1.base.setWidth 32
  | .src1Dim => s.src1.height ++ s.src1.width
  | .src1Fmt => s.src1.channels.setWidth 32
  | .dstBase => s.dstBase.setWidth 32
  | .scalar => s.scalar.setWidth 32
  | .gamma => s.gamma.setWidth 32
  | .kdiv => s.kdiv.setWidth 32
  | .kram i => (s.kram[i]).setWidth 32
  | .krom i => BitVec.ofInt 32 (kromValue i.val)
  | .kromDiv i => BitVec.ofNat 32 (kromDivValue i.val)

/-- A write of `v` to `SRCn_BASE` (10_state.md R32). -/
def SourceRegs.writeBase (r : SourceRegs) (v : Word) : SourceRegs := { r with base := v.setWidth 24 }

/-- A write of `v` to `SRCn_DIM` (10_state.md R33). -/
def SourceRegs.writeDim (r : SourceRegs) (v : Word) : SourceRegs :=
  { r with height := v.extractLsb' 16 16, width := v.extractLsb' 0 16 }

/-- A write of `v` to `SRCn_FMT` (10_state.md R34). -/
def SourceRegs.writeFmt (r : SourceRegs) (v : Word) : SourceRegs := { r with channels := v.setWidth 2 }

/-- A write to `CTRL`: with `SRST` = 1 the soft reset, the other bits of the same write discarded; otherwise the enables
(10_state.md R24). -/
def State.writeCtrl (s : State) (v : Word) : State := if v.getLsbD 31 then s.doReset else s.writeEnables v

/-- What an accepted write of `v` to a register does (10_state.md R24 to R40; 20_memory.md R70). The read-only registers
accept none. -/
def State.writeReg (s : State) (r : Reg) (v : Word) : State :=
  match r with
  | .id => s
  | .cap => s
  | .ctrl => s.writeCtrl v
  | .status => s.writeStatus v
  | .cause => s
  | .esticky => s.writeEsticky v
  | .cmd => s.launch v
  | .src0Base => { s with src0 := s.src0.writeBase v }
  | .src0Dim => { s with src0 := s.src0.writeDim v }
  | .src0Fmt => { s with src0 := s.src0.writeFmt v }
  | .src1Base => { s with src1 := s.src1.writeBase v }
  | .src1Dim => { s with src1 := s.src1.writeDim v }
  | .src1Fmt => { s with src1 := s.src1.writeFmt v }
  | .dstBase => { s with dstBase := v.setWidth 24 }
  | .scalar => { s with scalar := v.setWidth 24 }
  | .gamma => { s with gamma := v.setWidth 16 }
  | .kdiv => { s with kdiv := v.setWidth 24 }
  | .kram i => { s with kram := s.kram.set i (v.setWidth 16) }
  | .krom _ => s
  | .kromDiv _ => s

/-- The register a register-port access of this width at this offset reaches: 32 bits, aligned, mapped (20_memory.md R66,
R68 items 1 and 2). -/
def accessedReg (width off : Nat) : Option Reg := if width = 32 then regAt off else none

/-- The register a register-port write is accepted for (20_memory.md R67, R68 items 1 to 4). -/
def State.writtenReg (s : State) (width off : Nat) : Option Reg :=
  match accessedReg width off with
  | some r => if r.readOnly || (s.busy && !r.writableBusy) then none else some r
  | none => none

/-- A pixel-port access is accepted (20_memory.md R67, R68 items 5 and 6, R69). -/
def State.pixelAccepted (s : State) (width addr : Nat) : Bool :=
  decide (width = 8) && decide (addr < Config.pmemSize) && !s.busy

/-- `HostRegRead` (20_memory.md R60): no side effect (R70), or refused with data that is a free value (R68). -/
def State.hostRegRead (s : State) (width off : Nat) : State :=
  match accessedReg width off with
  | some r => { s with resp := .okWord (s.regWord r) }
  | none => { s.setRefused with resp := .errWord (Config.refusedWord s.fresh), fresh := s.fresh + 1 }

/-- `HostRegWrite` (20_memory.md R60). -/
def State.hostRegWrite (s : State) (width off : Nat) (v : Word) : State :=
  match s.writtenReg width off with
  | some r => { s.writeReg r v with resp := .okWrite }
  | none => { s.setRefused with resp := .errWrite }

/-- `HostPixRead` (20_memory.md R69). -/
def State.hostPixRead (s : State) (width addr : Nat) : State :=
  if s.pixelAccepted width addr then { s with resp := .okByte (Memory.read s.pmem addr) }
  else { s.setRefused with resp := .errByte (Config.refusedByte s.fresh), fresh := s.fresh + 1 }

/-- `HostPixWrite` (20_memory.md R69). -/
def State.hostPixWrite (s : State) (width addr : Nat) (b : Byte) : State :=
  if s.pixelAccepted width addr then { s with pmem := Memory.put s.pmem addr b, resp := .okWrite }
  else { s.setRefused with resp := .errWrite }

/-- One event of the host or of the reset input (20_memory.md R73). The engine's turn is no event of the host: it changes
nothing here. -/
def State.hostTurn (s : State) (t : Turn) : State :=
  match t with
  | .regRead width off => s.hostRegRead width off
  | .regWrite width off v => s.hostRegWrite width off v
  | .pixRead width addr => s.hostPixRead width addr
  | .pixWrite width addr b => s.hostPixWrite width addr b
  | .hardReset => s.doReset
  | .engine => s

/-! ### Host scripts and the byte view of the register space -/

/-- `wr <REG>, <value>` (30_encoding.md R108). -/
def scriptWr (r : Reg) (v : Word) : List Turn := [.regWrite 32 r.offset v]

/-- `rd <REG>` (95_test_vectors.md, notation). -/
def scriptRd (r : Reg) : List Turn := [.regRead 32 r.offset]

/-- `go <command>` (30_encoding.md R108). -/
def scriptGo (i : Instr) : List Turn := scriptWr .cmd (encode i)

/-- `wait` (30_encoding.md R108): reads of `STATUS` until one answers `BUSY` = 0. How many reads a running command lets
answer `BUSY` = 1 first is open (70_reset_and_hazards.md R340): the caller names their number, `busyPolls`; then the engine
has its turn and the last read follows. DESIGN CHOICE (safe, log entry 23). -/
def scriptWait (busyPolls : Nat) : List Turn :=
  (List.replicate busyPolls (scriptRd .status)).flatten ++ .engine :: scriptRd .status

/-- `wpix <addr>, <b0> <b1> ...` (30_encoding.md R108). -/
def scriptWpix (a : Nat) : List Byte → List Turn
  | [] => []
  | b :: bs => .pixWrite 8 a b :: scriptWpix (a + 1) bs

/-- `rpix <addr>, <n>` (30_encoding.md R108). -/
def scriptRpix (a : Nat) : Nat → List Turn
  | 0 => []
  | n + 1 => .pixRead 8 a :: scriptRpix (a + 1) n

/-- The byte at address `a` of a host bus that shows the register space as bytes from `REG_PORT_BASE`: byte `j` of the
register at offset `o` at `o + j`, bits 7:0 first (20_memory.md R65, R77). Only a view; the port itself moves words. -/
def State.busByte (s : State) (a : Nat) : Option Byte :=
  if a < Config.regPortBase then none
  else
    match regAt ((a - Config.regPortBase) - (a - Config.regPortBase) % 4) with
    | some r => some ((s.regWord r).extractLsb' (8 * ((a - Config.regPortBase) % 4)) 8)
    | none => none

/-- The address, on the host's bus, of a PMEM byte (20_memory.md R77). -/
def pixBusAddr (a : Nat) : Nat := Config.pixPortBase + a

end Sys2Proof.Machine
end

