-- ==== Sys2Proof/Machine/Step.lean ====
section
/-! DEFINITION. One step of WCE: the next event of the total order of 20_memory.md R73. The engine and the host never act
in one step; which of them moves is data in the state (`turns`), so every interleaving the specification allows is
a run from some state (log entries 1 and 2). -/

namespace Sys2Proof.Machine

open Host (Outcome)

/-- The engine's turn: a running command is decoded, checked, executed and completed (40_common_execute.md R121, R122);
an idle engine does nothing (60_exceptions.md R311). -/
def engineTurn (s : State) : Outcome State Fault Refusal :=
  if s.busy then
    match decode s.fetchWord with
    | .ok i => exec i s
    | .error _ => .next s.rejectWord
  else .next s

/-- One step. When no event is left the engine finishes what it runs (40_common_execute.md R123) and then idles. -/
def step (s : State) : Outcome State Fault Refusal :=
  match s.turns with
  | [] => engineTurn s
  | .engine :: rest => engineTurn { s with turns := rest }
  | t :: rest => .next (State.hostTurn { s with turns := rest } t)

/-- The state in which the very next step runs the command word `w`: the one an accepted write of `w` to `CMD` leaves
(40_common_execute.md R121), with the engine's turn next (log entry 8). -/
def State.withFetchWord (s : State) (nbits w : Nat) : State :=
  { s.launch (BitVec.ofNat 32 (w % 2 ^ nbits)) with turns := .engine :: s.turns }

end Sys2Proof.Machine
end

