-- ==== Sys2Proof/Safety.lean ====
section
/-! DEFINITION. The terms claims use: the invariant of the machine, when the operands of a command are in order
(60_exceptions.md R295, R296), what a completion leaves (R300, R301), and which steps are a reset. They are written
from the rules in plain arithmetic, apart from the checks of the meanings, so that a claim compares the two. -/

namespace Sys2Proof.Machine

open Host (Outcome)

/-! ### The invariant -/

/-- What every step keeps: pixel memory in its canonical form and inside its address range; while a command runs the
report of the one before is gone (40_common_execute.md R121, 70_reset_and_hazards.md R338); the cause code is one of
60_exceptions.md R291; `ERR` stands only beside a cause (R300); the unimplemented bit of `ESTICKY` is 0
(10_state.md R27). -/
structure State.Inv (s : State) : Prop where
  memory : Memory.wf s.pmem
  busyIsSilent : s.busy = true → s.done = false ∧ s.err = false ∧ s.cause = 0#5
  causeCode : s.cause.toNat ≤ 12
  errHasCause : s.err = true → s.cause ≠ 0#5
  stickyBit0 : s.esticky.getLsbD 0 = false

/-! ### Operands in order -/

/-- A descriptor is valid (60_exceptions.md R295). -/
def ValidShape (r : SourceRegs) : Prop :=
  1 ≤ r.height.toNat ∧ 1 ≤ r.width.toNat ∧ (r.channels.toNat = 1 ∨ r.channels.toNat = 3)

/-- `H*W*C` of a source (20_memory.md R61). -/
def byteCount (r : SourceRegs) : Nat := r.height.toNat * r.width.toNat * r.channels.toNat

/-- The range of `n` bytes from `a` fits PMEM (20_memory.md R63). -/
def Fits (a n : Nat) : Prop := a + n ≤ 2 ^ 24

/-- The ranges of `n` bytes from `a` and of `m` bytes from `b` share at least one address (20_memory.md R63). -/
def Overlap (a n b m : Nat) : Prop := ∃ k, a ≤ k ∧ k < a + n ∧ b ≤ k ∧ k < b + m

/-- Source 0 and the destination are in order for a command that reads source 0 alone and writes a buffer of its shape
(60_exceptions.md R295, R296). -/
def UnaryReady (s : State) : Prop :=
  ValidShape s.src0 ∧
  Fits s.src0.base.toNat (byteCount s.src0) ∧
  Fits s.dstBase.toNat (byteCount s.src0) ∧
  ¬ Overlap s.dstBase.toNat (byteCount s.src0) s.src0.base.toNat (byteCount s.src0)

/-- Source 0 and source 1 have the same height, width and channels (46_arith.md R251). -/
def SameShape (s : State) : Prop :=
  s.src1.height = s.src0.height ∧ s.src1.width = s.src0.width ∧ s.src1.channels = s.src0.channels

/-- Both sources and the destination are in order for ADD, SUB, MUL, DIV (46_arith.md R251; 60_exceptions.md R296). -/
def BinaryReady (s : State) : Prop :=
  UnaryReady s ∧ SameShape s ∧
  Fits s.src1.base.toNat (byteCount s.src1) ∧
  ¬ Overlap s.dstBase.toNat (byteCount s.src0) s.src1.base.toNat (byteCount s.src1)

/-- Source 0 and the one-channel destination are in order for GRAY (47_gray.md R281, R283, R284). -/
def GrayReady (s : State) : Prop :=
  1 ≤ s.src0.height.toNat ∧ 1 ≤ s.src0.width.toNat ∧ s.src0.channels.toNat = 3 ∧
  Fits s.src0.base.toNat (byteCount s.src0) ∧
  Fits s.dstBase.toNat (s.src0.height.toNat * s.src0.width.toNat) ∧
  ¬ Overlap s.dstBase.toNat (s.src0.height.toNat * s.src0.width.toNat) s.src0.base.toNat (byteCount s.src0)

/-! ### What a completion leaves -/

/-- Completion without fault (60_exceptions.md R300): `CAUSE` is 0, `DONE` is set, `BUSY` is cleared, and nothing else
changes but pixel memory. -/
def CompletedOk (s t : State) : Prop :=
  t = { s with cause := 0#5, done := true, busy := false, pmem := t.pmem }

/-- Completion with a fault (60_exceptions.md R300, R301): the report, and nothing else: no PMEM byte changes. -/
def CompletedFault (s t : State) (c : Cause) : Prop :=
  t = { s with
        cause := c.code
        err := true
        esticky := s.esticky ||| (1#14 <<< c.code.toNat)
        done := true
        busy := false }

/-- The bytes of `[a, a+n)` may have changed; every other byte of pixel memory reads as before (20_memory.md R71). -/
def UnchangedOutside (s t : State) (a n : Nat) : Prop :=
  ∀ k, k < a ∨ a + n ≤ k → Memory.read t.pmem k = Memory.read s.pmem k

/-- The destination `(dst, h, w, c)` holds `out` at every element, each at the address of 20_memory.md R62, and every byte
outside its range reads as before (40_common_execute.md R124, 20_memory.md R71). -/
def WritesBuffer (s t : State) (dst h w c : Nat) (out : Nat → Nat → Nat → Nat) : Prop :=
  (∀ y x k, y < h → x < w → k < c →
    (Memory.read t.pmem (dst + (y * w + x) * c + k)).toNat = out y x k) ∧
  UnchangedOutside s t dst (h * w * c)

/-- The same, for a destination of the shape of source 0. -/
def WritesDest (s t : State) (out : Nat → Nat → Nat → Nat) : Prop :=
  WritesBuffer s t s.dstBase.toNat s.src0.height.toNat s.src0.width.toNat s.src0.channels.toNat out

/-- `pix` of source 0 (46_arith.md R252). -/
def State.pix0 (s : State) (y x c : Nat) : Nat := pix s.pmem s.source0 y x c

/-- `pix` of source 1 (46_arith.md R252). -/
def State.pix1 (s : State) (y x c : Nat) : Nat := pix s.pmem s.source1 y x c

/-- The command completes without fault and writes `out` to a destination of the shape of source 0. -/
def Computes (i : Instr) (s : State) (out : Nat → Nat → Nat → Nat) : Prop :=
  ∃ t, exec i s = .next t ∧ CompletedOk s t ∧ WritesDest s t out

/-- The command completes with the fault. -/
def Faults (i : Instr) (s : State) (c : Cause) : Prop :=
  ∃ t, exec i s = .next t ∧ CompletedFault s t c

/-! ### Kinds of commands -/

/-- The commands that read source 1 (60_exceptions.md R296). -/
def readsSource1 (i : Instr) : Bool := decide (i ∈ [Instr.add, .sub, .mul, .div])

/-- The commands that read `SCALAR` (10_state.md R31). -/
def readsScalar (i : Instr) : Bool := decide (i ∈ [Instr.adds, .subs, .muls, .divs])

/-- The destination range of a command, first address and number of bytes (60_exceptions.md R296); NOP has none. -/
def destRange (i : Instr) (s : State) : Nat × Nat :=
  match i with
  | .nop => (s.dstBase.toNat, 0)
  | .gray _ => (s.dstBase.toNat, s.src0.height.toNat * s.src0.width.toNat)
  | .conv _ _ _ _ => (s.dstBase.toNat, byteCount s.src0)
  | .median _ _ => (s.dstBase.toNat, byteCount s.src0)
  | .sobel _ _ => (s.dstBase.toNat, byteCount s.src0)
  | .add => (s.dstBase.toNat, byteCount s.src0)
  | .adds => (s.dstBase.toNat, byteCount s.src0)
  | .sub => (s.dstBase.toNat, byteCount s.src0)
  | .subs => (s.dstBase.toNat, byteCount s.src0)
  | .mul => (s.dstBase.toNat, byteCount s.src0)
  | .muls => (s.dstBase.toNat, byteCount s.src0)
  | .div => (s.dstBase.toNat, byteCount s.src0)
  | .divs => (s.dstBase.toNat, byteCount s.src0)
  | .gamma => (s.dstBase.toNat, byteCount s.src0)

/-- The parameter checks of the command pass (60_exceptions.md R292 group 2). -/
def ParamsPass (i : Instr) (s : State) : Prop :=
  match i with
  | .conv _ ksel _ k =>
      (k = 1 ∨ k = 3 ∨ k = 5 ∨ k = 7) ∧ (isSobelTable ksel = true → k = 3) ∧ (ksel = .kram → s.kdiv.toNat ≠ 0)
  | .median _ r => 0 ≤ r ∧ r ≤ 3
  | .sobel _ angles => angles ≠ 0#4
  | .gamma => 0 < s.gamma.toInt
  | .nop => True
  | .add => True
  | .adds => True
  | .sub => True
  | .subs => True
  | .mul => True
  | .muls => True
  | .div => True
  | .divs => True
  | .gray _ => True

/-- The shape checks of the command pass (60_exceptions.md R292 group 3). -/
def ShapesPass (i : Instr) (s : State) : Prop :=
  ValidShape s.src0 ∧
  (readsSource1 i = true → ValidShape s.src1 ∧ SameShape s) ∧
  (∀ mode, i = .gray mode → s.src0.channels.toNat = 3)

/-- Which causes a command can raise (60_exceptions.md R297), apart from IllegalCommand, which a word that decodes never
raises. -/
def possibleCauses (i : Instr) : List Cause :=
  match i with
  | .nop => []
  | .conv _ _ _ _ =>
      [.kernelSizeMismatch, .unsupportedSize, .invalidDivisor, .invalidShape, .addressRange, .bufferOverlap]
  | .median _ _ => [.invalidRadius, .unsupportedSize, .invalidShape, .addressRange, .bufferOverlap]
  | .sobel _ _ => [.emptyAngleSet, .invalidShape, .addressRange, .bufferOverlap]
  | .add => [.shapeMismatch, .invalidShape, .addressRange, .bufferOverlap]
  | .sub => [.shapeMismatch, .invalidShape, .addressRange, .bufferOverlap]
  | .mul => [.shapeMismatch, .invalidShape, .addressRange, .bufferOverlap]
  | .div => [.shapeMismatch, .invalidShape, .addressRange, .bufferOverlap]
  | .adds => [.invalidShape, .addressRange, .bufferOverlap]
  | .subs => [.invalidShape, .addressRange, .bufferOverlap]
  | .muls => [.invalidShape, .addressRange, .bufferOverlap]
  | .divs => [.invalidShape, .addressRange, .bufferOverlap]
  | .gamma => [.invalidGamma, .invalidShape, .addressRange, .bufferOverlap]
  | .gray _ => [.unsupportedChannelCount, .invalidShape, .addressRange, .bufferOverlap]

/-- The two states agree on every register the command reads (10_state.md R31; of KRAM only the first `k*k` entries, R40)
and on every byte of its source ranges (00_scope.md R9); on nothing else need they agree. -/
def SameInputs (i : Instr) (s t : State) : Prop :=
  (i ≠ .nop → s.src0 = t.src0 ∧ s.dstBase = t.dstBase) ∧
  (readsSource1 i = true → s.src1 = t.src1) ∧
  (readsScalar i = true → s.scalar = t.scalar) ∧
  (i = .gamma → s.gamma = t.gamma) ∧
  (∀ bp neg k, i = .conv bp .kram neg k →
    s.kdiv = t.kdiv ∧ ∀ j : Fin 49, j.val < k * k → s.kram[j] = t.kram[j]) ∧
  (i ≠ .nop → ∀ a, s.src0.base.toNat ≤ a → a < s.src0.base.toNat + byteCount s.src0 →
    Memory.read s.pmem a = Memory.read t.pmem a) ∧
  (readsSource1 i = true → ∀ a, s.src1.base.toNat ≤ a → a < s.src1.base.toNat + byteCount s.src1 →
    Memory.read s.pmem a = Memory.read t.pmem a)

/-- The numerators of a kernel of side `k`, row by row, as 44_kernel_rom.md prints them. -/
def kernelRows (s : State) (ksel : KernelSel) (k : Nat) : List (List Int) :=
  (List.range k).map fun i => (List.range k).map fun j => numerator s ksel false k i j

/-- The factor `NEG` puts on every numerator (42_linear_filter.md R174). -/
def negSign (neg : Bool) : Int := if neg then -1 else 1

/-! ### Turns and the register map -/

/-- The turn resets the machine: the reset input, or an accepted write to `CTRL` with bit 31 set (10_state.md R24;
70_reset_and_hazards.md R330, R332). -/
def Turn.resets (t : Turn) : Bool :=
  match t with
  | .hardReset => true
  | .regWrite width off v => decide (width = 32) && decide (off = 0x008) && v.getLsbD 31
  | .regRead _ _ => false
  | .pixRead _ _ => false
  | .pixWrite _ _ _ => false
  | .engine => false

/-- The engine moves next: its turn heads the schedule, or nothing is left there. -/
def State.engineNext (s : State) : Prop := s.turns = [] ∨ ∃ rest, s.turns = .engine :: rest

/-- The state with the first turn taken off the schedule. -/
def State.afterTurn (s : State) : State := { s with turns := s.turns.tail }

/-- The aligned offsets that the register map names (10_state.md R21). -/
def MappedOffset (off : Nat) : Prop :=
  off ≤ 0x018 ∨ (0x020 ≤ off ∧ off ≤ 0x028) ∨ (0x030 ≤ off ∧ off ≤ 0x038) ∨ (0x040 ≤ off ∧ off ≤ 0x04C) ∨
  (0x100 ≤ off ∧ off ≤ 0x1C0) ∨ (0x800 ≤ off ∧ off ≤ 0xDCC) ∨ (0xE00 ≤ off ∧ off ≤ 0xE4C)

/-- The offsets of the read-only registers (20_memory.md R68 item 3). -/
def ReadOnlyOffset (off : Nat) : Prop :=
  off = 0x000 ∨ off = 0x004 ∨ off = 0x010 ∨ (0x800 ≤ off ∧ off ≤ 0xDCC) ∨ (0xE00 ≤ off ∧ off ≤ 0xE4C)

/-- A register-port read is refused (20_memory.md R68 items 1, 2). -/
def RefusedRegRead (width off : Nat) : Prop := width ≠ 32 ∨ off % 4 ≠ 0 ∨ ¬ MappedOffset off

/-- A register-port write is refused (20_memory.md R68 items 1 to 4). -/
def RefusedRegWrite (s : State) (width off : Nat) : Prop :=
  width ≠ 32 ∨ off % 4 ≠ 0 ∨ ¬ MappedOffset off ∨ ReadOnlyOffset off ∨
  (s.busy = true ∧ off ≠ 0x008 ∧ off ≠ 0x00C ∧ off ≠ 0x014)

/-- A pixel-port access is refused (20_memory.md R68 items 5, 6). -/
def RefusedPixel (s : State) (width addr : Nat) : Prop := width ≠ 8 ∨ 2 ^ 24 ≤ addr ∨ s.busy = true

/-- The bits that an operand register or a KRAM entry holds (10_state.md R32 to R40); no other register has a mask. -/
def operandMask (r : Reg) : Option Word :=
  match r with
  | .src0Base => some 0x00FFFFFF#32
  | .src0Dim => some 0xFFFFFFFF#32
  | .src0Fmt => some 0x00000003#32
  | .src1Base => some 0x00FFFFFF#32
  | .src1Dim => some 0xFFFFFFFF#32
  | .src1Fmt => some 0x00000003#32
  | .dstBase => some 0x00FFFFFF#32
  | .scalar => some 0x00FFFFFF#32
  | .gamma => some 0x0000FFFF#32
  | .kdiv => some 0x00FFFFFF#32
  | .kram _ => some 0x0000FFFF#32
  | .id => none
  | .cap => none
  | .ctrl => none
  | .status => none
  | .cause => none
  | .esticky => none
  | .cmd => none
  | .krom _ => none
  | .kromDiv _ => none

end Sys2Proof.Machine
end

