-- ==== Sys2Proof/Certificates/Slice0/Obligations.lean ====
section
/-! DEFINITION. The statements for the provers. Each docstring says which rules of the specification it formalises. -/

open Sys2Proof Sys2Proof.Machine
open scoped BigOperators

/-- For every well-formed command, with every operand at every value its field admits, decode of encode is that command. (30_encoding.md R91, 30_encoding.md R92, 30_encoding.md R97, 30_encoding.md R103, 30_encoding.md R104) -/
def Obligations.DecodeOfEncodeIsTheCommand : Prop :=
  ∀ i : Instr, i.WellFormed → decode (encode i) = .ok i

/-- Whenever a word decodes to a command, that command is well formed and its encoding is that very word, so no bit of a legal word is dropped and no two words mean one command. (30_encoding.md R102, 30_encoding.md R103) -/
def Obligations.EveryLegalWordHasOneMeaning : Prop :=
  ∀ (w : Word) (i : Instr), decode w = .ok i → i.WellFormed ∧ encode i = w

/-- Decoding rejects a word exactly when its OP is 0xA to 0xF, or it matches no row of the opcode table, or it is CONV, MEDIAN or SOBEL with BP = 3, or CONV with KSEL 9 to 15. A running illegal word completes, at the engine's turn, with IllegalCommand (code 7) and nothing else: no PMEM byte and no register but the report changes, and CMD still holds the word. What it does depends on the word alone, not on operands. (R102, R293) -/
def Obligations.IllegalWordsAreExactlyTheseAndOnlyReport : Prop :=
  (∀ w : Word, (∃ e, decode w = .error e) ↔
    (10 ≤ w.toNat / 2 ^ 28 ∨
     (∀ r ∈ opcodeTable, w &&& r.mask ≠ r.pattern) ∨
     ((w.toNat / 2 ^ 28 = 1 ∨ w.toNat / 2 ^ 28 = 2 ∨ w.toNat / 2 ^ 28 = 3) ∧ w.toNat / 2 ^ 26 % 4 = 3) ∨
     (w.toNat / 2 ^ 28 = 1 ∧ 9 ≤ w.toNat / 2 ^ 22 % 16))) ∧
  (∀ (s : State) (e : DecodeError), s.busy = true → s.engineNext → decode s.cmd = .error e →
    ∃ t, step s = .next t ∧ CompletedFault s.afterTurn t .illegalCommand ∧ t.cmd = s.cmd ∧
      Cause.illegalCommand.code = 7#5)

/-- If a word selects two rows of the opcode table, they are the same row. (30_encoding.md R103, 30_encoding.md R104) -/
def Obligations.OpcodeRowsAreDisjoint : Prop :=
  ∀ (w : Word) (r r' : OpcodeRow), r ∈ opcodeTable → r' ∈ opcodeTable →
    r.selects w = true → r'.selects w = true → r = r'

/-- Eleven example words of 30_encoding.md R106 decode to the commands printed beside them there. (30_encoding.md R106, 95_test_vectors.md V-DEC) -/
def Obligations.PublishedWordsDecode : Prop :=
  decode 0x14460000#32 = .ok (.conv .replicate .mean false 3) ∧
  decode 0x188A0000#32 = .ok (.conv .reflect .gauss false 5) ∧
  decode 0x15260000#32 = .ok (.conv .replicate .sobel0 true 3) ∧
  decode 0x120E0000#32 = .ok (.conv .zeroFill .kram false 7) ∧
  decode 0x24020000#32 = .ok (.median .replicate 1) ∧
  decode 0x201E0000#32 = .ok (.median .zeroFill (-1)) ∧
  decode 0x3400A000#32 = .ok (.sobel .replicate 0b0101#4) ∧
  decode 0x3001E000#32 = .ok (.sobel .zeroFill 0b1111#4) ∧
  decode 0x40001000#32 = .ok .adds ∧
  decode 0x80000000#32 = .ok .gamma ∧
  decode 0x90000800#32 = .ok (.gray .greenOnly)

/-- When a command is running, the engine moves next, and the word in CMD decodes to a command, the step is exec of that command on the state with the turn taken off. In particular the step after withFetchWord runs the word on the state its launch leaves. The schedule (turns) is the model's own, log entries 1, 2 and 8. (40_common_execute.md R121, 40_common_execute.md R122, 10_state.md R28) -/
def Obligations.StepRunsDecodedCommand : Prop :=
  (∀ (s : State) (i : Instr), s.busy = true → s.engineNext → decode s.cmd = .ok i → step s = exec i s.afterTurn) ∧
  (∀ (s : State) (w : Word) (i : Instr), decode w = .ok i →
    step (s.withFetchWord 32 w.toNat) = exec i (s.launch w))

/-- An aligned 32-bit write to CMD with the engine idle stores the word, clears DONE, ERR and CAUSE, sets BUSY and changes nothing else; with the engine busy it is refused: only ESTICKY bit 13 is set. A read of CMD returns the word it holds and changes nothing; after reset that word is 0. (turns and resp are the model's own fields, log entries 1 and 7.) (10_state.md R28, 40_common_execute.md R121) -/
def Obligations.CmdWriteLaunchesOrIsRefused : Prop :=
  (∀ (s : State) (w : Word) (rest : List Turn), s.turns = .regWrite 32 0x018 w :: rest → s.busy = false →
    step s = .next { s with
      turns := rest, resp := .okWrite, cmd := w, done := false, err := false, cause := 0#5, busy := true }) ∧
  (∀ (s : State) (w : Word) (rest : List Turn), s.turns = .regWrite 32 0x018 w :: rest → s.busy = true →
    step s = .next { s with turns := rest, resp := .errWrite, esticky := s.esticky ||| 0x2000#14 }) ∧
  (∀ (s : State) (rest : List Turn), s.turns = .regRead 32 0x018 :: rest →
    step s = .next { s with turns := rest, resp := .okWord s.cmd }) ∧
  State.reset.cmd = 0#32

/-- Whatever the state, the step answers a next state. (40_common_execute.md R123, 93_implementation_defined.md part 2) -/
def Obligations.EveryStepAnswersNext : Prop :=
  ∀ s : State, ∃ t, step s = .next t

/-- From every state, one step more than there are turns left ends in a state with no turn left and BUSY = 0, whatever the host did meanwhile: what was running has completed, or a reset among the turns aborted it. (The finite schedule is the model's form of the fairness assumption, log entry 1.) (40_common_execute.md R123, 70_reset_and_hazards.md R340) -/
def Obligations.EngineComesToRest : Prop :=
  ∀ s : State, ∃ t : State, Sys2Proof.core.run (s.turns.length + 1) s = .next t ∧ t.busy = false ∧ t.turns = []

/-- While a command runs, a host turn that is no reset leaves BUSY, CMD, CAUSE, every operand register, KDIV, KRAM and all of PMEM as they were; it may change only CTRL, DONE and ERR (which it can only clear), ESTICKY and the model's own fields. (20_memory.md R67, 10_state.md R28, 70_reset_and_hazards.md R338) -/
def Obligations.RunningCommandIsUndisturbed : Prop :=
  ∀ (s : State) (turn : Turn) (rest : List Turn), s.busy = true → s.turns = turn :: rest → turn ≠ .engine →
    turn.resets = false →
    ∃ t, step s = .next t ∧
      t = { s with
        turns := rest, ieDone := t.ieDone, ieErr := t.ieErr, done := t.done, err := t.err, esticky := t.esticky,
        resp := t.resp, fresh := t.fresh } ∧
      (s.done = false → t.done = false) ∧ (s.err = false → t.err = false)

/-- A register or pixel access is refused exactly in the six cases of the rule; a refused access has response err, sets ESTICKY bit 13 and changes no other state (not STATUS, not CAUSE, so no interrupt), and a refused read returns some data. Every other access has response ok. (turns, resp and the counter fresh are the model's own fields.) (R68) -/
def Obligations.RefusedAccessesAreExactlyThese : Prop :=
  ∀ (s : State) (rest : List Turn) (width a : Nat),
    (s.turns = .regRead width a :: rest →
      (RefusedRegRead width a → ∃ d, step s = .next { s with
        turns := rest, esticky := s.esticky ||| 0x2000#14, resp := .errWord d, fresh := s.fresh + 1 }) ∧
      (¬ RefusedRegRead width a → ∃ d, step s = .next { s with turns := rest, resp := .okWord d })) ∧
    (∀ v, s.turns = .regWrite width a v :: rest →
      (RefusedRegWrite s width a →
        step s = .next { s with turns := rest, esticky := s.esticky ||| 0x2000#14, resp := .errWrite }) ∧
      (¬ RefusedRegWrite s width a → ∃ t, step s = .next t ∧ t.resp = .okWrite)) ∧
    (s.turns = .pixRead width a :: rest →
      (RefusedPixel s width a → ∃ d, step s = .next { s with
        turns := rest, esticky := s.esticky ||| 0x2000#14, resp := .errByte d, fresh := s.fresh + 1 }) ∧
      (¬ RefusedPixel s width a → ∃ d, step s = .next { s with turns := rest, resp := .okByte d })) ∧
    (∀ b, s.turns = .pixWrite width a b :: rest →
      (RefusedPixel s width a →
        step s = .next { s with turns := rest, esticky := s.esticky ||| 0x2000#14, resp := .errWrite }) ∧
      (¬ RefusedPixel s width a → ∃ t, step s = .next t ∧ t.resp = .okWrite))

/-- Each offset that 10_state.md R21 prints is the register it prints beside it, every register stands at one offset only, and the mapped offsets are exactly the aligned ones of R21. (10_state.md R21) -/
def Obligations.RegisterMapIsThePublishedOne : Prop :=
  (regAt 0x000 = some .id ∧ regAt 0x004 = some .cap ∧ regAt 0x008 = some .ctrl ∧ regAt 0x00C = some .status ∧
    regAt 0x010 = some .cause ∧ regAt 0x014 = some .esticky ∧ regAt 0x018 = some .cmd ∧
    regAt 0x020 = some .src0Base ∧ regAt 0x024 = some .src0Dim ∧ regAt 0x028 = some .src0Fmt ∧
    regAt 0x030 = some .src1Base ∧ regAt 0x034 = some .src1Dim ∧ regAt 0x038 = some .src1Fmt ∧
    regAt 0x040 = some .dstBase ∧ regAt 0x044 = some .scalar ∧ regAt 0x048 = some .gamma ∧
    regAt 0x04C = some .kdiv) ∧
  (∀ i : Fin 49, regAt (0x100 + 4 * i.val) = some (.kram i)) ∧
  (∀ i : Fin 372, regAt (0x800 + 4 * i.val) = some (.krom i)) ∧
  (∀ i : Fin 20, regAt (0xE00 + 4 * i.val) = some (.kromDiv i)) ∧
  (∀ r : Reg, regAt r.offset = some r) ∧
  (∀ (off : Nat) (r : Reg), regAt off = some r → r.offset = off) ∧
  (∀ off : Nat, (∃ r, regAt off = some r) ↔ (off % 4 = 0 ∧ MappedOffset off))

/-- With the engine idle, writing a word to an operand register or KRAM entry and reading it back returns the word masked to the register's field; every other register of the map reads as before and pixel memory is unchanged. (10_state.md R31, 10_state.md R32, 10_state.md R33, 10_state.md R34, 10_state.md R35, 10_state.md R36, 10_state.md R37, 10_state.md R38, 10_state.md R40) -/
def Obligations.OperandRegistersReadBackMasked : Prop :=
  ∀ (s : State) (rest : List Turn) (r : Reg) (v mask : Word), s.busy = false → operandMask r = some mask →
    s.turns = .regWrite 32 r.offset v :: .regRead 32 r.offset :: rest →
    ∃ t : State, Sys2Proof.core.run 2 s = .next t ∧ t.turns = rest ∧ t.resp = .okWord (v &&& mask) ∧
      t.pmem = s.pmem ∧ ∀ q : Reg, q ≠ r → t.regWord q = s.regWord q

/-- An aligned 32-bit write to STATUS clears DONE if bit 1 is written 1 and ERR if bit 2 is, ignores every other bit, and changes nothing else, in either engine state. STATUS reads as BUSY + 2*DONE + 4*ERR. (10_state.md R25) -/
def Obligations.StatusIsWriteOneToClear : Prop :=
  (∀ (s : State) (v : Word) (rest : List Turn), s.turns = .regWrite 32 0x00C v :: rest →
    step s = .next { s with
      turns := rest, resp := .okWrite, done := s.done && !(v.getLsbD 1), err := s.err && !(v.getLsbD 2) }) ∧
  (∀ s : State, (s.regWord .status).toNat = s.busy.toNat + 2 * s.done.toNat + 4 * s.err.toNat)

/-- An aligned 32-bit write to ESTICKY clears, in the word ESTICKY reads as, exactly the bits written 1, and changes nothing else, in either engine state. A set bit of ESTICKY is cleared in a step only by a reset or by a host write of 1 to that bit; a clear bit is set in a step only by the completion of a command with that cause code, or, for bit 13, by a refused access. (10_state.md R27, 20_memory.md R68, 60_exceptions.md R300) -/
def Obligations.StickyBitsComeFromReportsAndGoByTheHost : Prop :=
  (∀ (s : State) (v : Word) (rest : List Turn), s.turns = .regWrite 32 0x014 v :: rest →
    ∃ t, step s = .next t ∧ t = { s with turns := rest, resp := .okWrite, esticky := t.esticky } ∧
      t.regWord .esticky = s.regWord .esticky &&& ~~~v) ∧
  (∀ (s t : State) (k : Nat), 1 ≤ k → k ≤ 13 → step s = .next t →
    (s.esticky.getLsbD k = true → t.esticky.getLsbD k = false →
      (∃ turn rest, s.turns = turn :: rest ∧ turn.resets = true) ∨
      (∃ v rest, s.turns = .regWrite 32 0x014 v :: rest ∧ v.getLsbD k = true)) ∧
    (s.esticky.getLsbD k = false → t.esticky.getLsbD k = true →
      (s.busy = true ∧ t.busy = false ∧ t.done = true ∧ t.err = true ∧ t.cause.toNat = k) ∨
      (k = 13 ∧ (t.resp = .errWrite ∨ (∃ d, t.resp = .errWord d) ∨ ∃ d, t.resp = .errByte d))))

/-- A step at a hardware reset or at an accepted write of CTRL with bit 31 set, in either engine state, leaves every register of the map at the reset value of 10_state.md R21, KRAM all 0, the engine idle and irq 0. (70_reset_and_hazards.md R330, 10_state.md R21) -/
def Obligations.ResetGivesEveryRegisterItsResetValue : Prop :=
  ∀ (s : State) (turn : Turn) (rest : List Turn), s.turns = turn :: rest → turn.resets = true →
    ∃ t, step s = .next t ∧ t.turns = rest ∧ t.irq = false ∧
      t.regWord .ctrl = 0#32 ∧ t.regWord .status = 0#32 ∧ t.regWord .cause = 0#32 ∧ t.regWord .esticky = 0#32 ∧
      t.regWord .cmd = 0#32 ∧ t.regWord .src0Base = 0#32 ∧ t.regWord .src0Dim = 0#32 ∧ t.regWord .src0Fmt = 0#32 ∧
      t.regWord .src1Base = 0#32 ∧ t.regWord .src1Dim = 0#32 ∧ t.regWord .src1Fmt = 0#32 ∧
      t.regWord .dstBase = 0#32 ∧ t.regWord .scalar = 0#32 ∧ t.regWord .gamma = 0x00000100#32 ∧
      t.regWord .kdiv = 0x00000001#32 ∧ (∀ i : Fin 49, t.regWord (.kram i) = 0#32) ∧
      t.regWord .id = 0x57434531#32 ∧ t.regWord .cap = 0x00031803#32

/-- In either engine state, an accepted write to CTRL with bit 31 set leaves the state a hardware reset would leave at that instant, apart from the response of the write; the other bits of the write are discarded. R332 says so of every register, of KRAM and of the engine; that the unspecified bytes of an aborted destination and the counter of free values also agree is the model's choice (log entries 4 and 6; turns and resp are its own fields, log entries 1 and 7). (70_reset_and_hazards.md R332, 10_state.md R24) -/
def Obligations.SoftResetEqualsHardwareReset : Prop :=
  ∀ (s : State) (v : Word) (rest : List Turn), v.getLsbD 31 = true →
    ∃ t, step { s with turns := .hardReset :: rest } = .next t ∧
      step { s with turns := .regWrite 32 0x008 v :: rest } = .next { t with resp := .okWrite }

/-- A reset with the engine idle, or while an illegal word or a command that would fault runs, leaves PMEM unchanged. A reset that aborts a running command leaves every byte outside that command's destination range as it was. (70_reset_and_hazards.md R331, 70_reset_and_hazards.md R333) -/
def Obligations.ResetKeepsPixelMemoryButTheAbortedDestination : Prop :=
  ∀ (s t : State) (turn : Turn) (rest : List Turn), s.turns = turn :: rest → turn.resets = true → step s = .next t →
    (s.busy = false → t.pmem = s.pmem) ∧
    (∀ e, decode s.cmd = .error e → t.pmem = s.pmem) ∧
    (∀ i, decode s.cmd = .ok i →
      UnchangedOutside s t (destRange i s).1 (destRange i s).2 ∧
      ((∃ c, Faults i s c) → t.pmem = s.pmem))

/-- While the engine is idle, a pixel read at an address below 2^24 returns the byte there and changes nothing, so that repeating it returns the same byte; a pixel write sets that byte and leaves every other byte and every register as they were. (R69) -/
def Obligations.PixelPortReadsAndWritesOneByte : Prop :=
  ∀ (s : State) (a : Nat) (rest : List Turn), s.busy = false → a < 2 ^ 24 →
    (s.turns = .pixRead 8 a :: rest →
      step s = .next { s with turns := rest, resp := .okByte (Memory.read s.pmem a) }) ∧
    (∀ b : Byte, s.turns = .pixWrite 8 a b :: rest →
      ∃ t, step s = .next t ∧ t = { s with turns := rest, resp := .okWrite, pmem := t.pmem } ∧
        Memory.read t.pmem a = b ∧ ∀ k, k ≠ a → Memory.read t.pmem k = Memory.read s.pmem k)

/-- An aligned 32-bit read of each of these registers returns, in either engine state and without side effect: ID 0x57434531, CAP 0x00031803, CTRL the two enables, CAUSE the code, ESTICKY bits 13:1 with the rest 0, KROM[i] the sign-extended numerator, KROMDIV[i] the divisor. (10_state.md R22, 10_state.md R23, 10_state.md R24, 10_state.md R26, 10_state.md R27, 10_state.md R41, 10_state.md R42, 20_memory.md R70) -/
def Obligations.ConstantsAndFlagsReadAsPublished : Prop :=
  ∀ (s : State) (rest : List Turn) (r : Reg), s.turns = .regRead 32 r.offset :: rest →
    step s = .next { s with turns := rest, resp := .okWord (s.regWord r) } ∧
    (r = .id → s.regWord r = 0x57434531#32) ∧
    (r = .cap → s.regWord r = 0x00031803#32) ∧
    (r = .ctrl → (s.regWord r).toNat = s.ieDone.toNat + 2 * s.ieErr.toNat) ∧
    (r = .cause → (s.regWord r).toNat = s.cause.toNat) ∧
    (r = .esticky → ∀ k, (s.regWord r).getLsbD k = (decide (1 ≤ k ∧ k ≤ 13) && s.esticky.getLsbD k)) ∧
    (∀ i, r = .krom i → (s.regWord r).toInt = krom.getD i.val 0) ∧
    (∀ i, r = .kromDiv i → (s.regWord r).toNat = kromDiv.getD i.val 0)

/-- irq is the OR of DONE with its enable and ERR with its enable. When a command that began with ERR = 0 completes, irq is 1 exactly when IE_DONE is 1 or IE_ERR is 1 and the cause is not 0. Launch makes irq 0, and irq is 0 after reset. (60_exceptions.md R304, 60_exceptions.md R305, 40_common_execute.md R121) -/
def Obligations.InterruptFollowsCompletion : Prop :=
  (∀ s : State, s.irq = ((s.done && s.ieDone) || (s.err && s.ieErr))) ∧
  (∀ (i : Instr) (s t : State), s.err = false → exec i s = .next t →
    (t.irq = true ↔ (s.ieDone = true ∨ (s.ieErr = true ∧ t.cause ≠ 0#5)))) ∧
  (∀ (s : State) (w : Word), (s.launch w).irq = false) ∧
  State.reset.irq = false

/-- Every command in every state completes: either with CAUSE = 0, DONE set, BUSY cleared and nothing else changed but PMEM; or with a cause 1 to 12 in CAUSE, DONE and ERR set, BUSY cleared, the cause's ESTICKY bit set, and nothing else changed: no PMEM byte, no operand register, no KRAM entry. (R301) -/
def Obligations.CompletionReportsAndFaultsArePrecise : Prop :=
  ∀ (i : Instr) (s : State), ∃ t, exec i s = .next t ∧
    (CompletedOk s t ∨ ∃ c : Cause, CompletedFault s t c ∧ 1 ≤ c.code.toNat ∧ c.code.toNat ≤ 12)

/-- A command that completes with a fault has one of the causes that 60_exceptions.md R297 marks for it (IllegalCommand is raised by words that do not decode, never by a decoded command). (60_exceptions.md R297, 60_exceptions.md R291) -/
def Obligations.EachCommandRaisesOnlyItsOwnCauses : Prop :=
  ∀ (i : Instr) (s : State) (c : Cause), Faults i s c → c ∈ possibleCauses i

/-- Whatever the command and the state: after exec every byte outside the command's destination range (H*W*C bytes from DST_BASE; H*W for GRAY; none for NOP) reads as before, and every register but STATUS, CAUSE and ESTICKY is unchanged. (20_memory.md R71, 00_scope.md R9, 60_exceptions.md R300, 47_gray.md R284) -/
def Obligations.OnlyTheDestinationRangeChanges : Prop :=
  ∀ (i : Instr) (s t : State), exec i s = .next t →
    UnchangedOutside s t (destRange i s).1 (destRange i s).2 ∧
    t = { s with cause := t.cause, err := t.err, esticky := t.esticky, done := t.done, busy := t.busy, pmem := t.pmem }

/-- Two states that differ only in CTRL, STATUS, CAUSE, ESTICKY, CMD and the model's own fields give, for every command, the same pixel memory and the same cause. (10_state.md R44) -/
def Obligations.FlagsNeverInfluenceResults : Prop :=
  ∀ (i : Instr) (s s' t t' : State),
    s' = { s with
      ieDone := s'.ieDone, ieErr := s'.ieErr, busy := s'.busy, done := s'.done, err := s'.err, cause := s'.cause,
      esticky := s'.esticky, cmd := s'.cmd, turns := s'.turns, resp := s'.resp, fresh := s'.fresh } →
    exec i s = .next t → exec i s' = .next t' → t'.pmem = t.pmem ∧ t'.cause = t.cause

/-- Two states that agree on the registers a command reads (of KRAM only the first k*k entries, for CONV of side k with the KRAM kernel) and on the bytes of its source ranges, and perhaps on nothing else, give the same cause and, where the command completes without fault, the same value in every byte of the destination range. (00_scope.md R9, 10_state.md R31, 10_state.md R40, 20_memory.md R71) -/
def Obligations.ResultDependsOnlyOnWhatTheCommandReads : Prop :=
  ∀ (i : Instr) (s s' t t' : State), SameInputs i s s' → exec i s = .next t → exec i s' = .next t' →
    t'.cause = t.cause ∧
    (t.cause = 0#5 → ∀ a, (destRange i s).1 ≤ a → a < (destRange i s).1 + (destRange i s).2 →
      Memory.read t'.pmem a = Memory.read t.pmem a)

/-- In every state, whatever the operand registers hold, NOP completes: CAUSE 0, DONE set, BUSY cleared, nothing else changed; no PMEM byte, no other register. (40_common_execute.md R140) -/
def Obligations.NopOnlySignalsCompletion : Prop :=
  ∀ s : State, exec .nop s = .next { s with cause := 0#5, done := true, busy := false }

/-- With KSIDE 1, 3, 5 or 7 (3 for a Sobel table; KDIV not 0 for the KRAM kernel) and operands in order, CONV under every boundary policy, kernel and NEG completes without fault and stores at each (y, x, c) clip(rne_div(acc, D)), acc the sum over the window of the numerator times the sample at the same index (no flip); every other byte and every register but the report is unchanged. (42_linear_filter.md R171, 42_linear_filter.md R172, 42_linear_filter.md R174, 41_window_engine.md R151) -/
def Obligations.ConvStoresTheRoundedWeightedSum : Prop :=
  ∀ (s : State) (bp : BoundaryPolicy) (ksel : KernelSel) (neg : Bool) (k : Nat),
    ParamsPass (.conv bp ksel neg k) s → UnaryReady s →
    Computes (.conv bp ksel neg k) s fun y x c =>
      clip (rneDiv
        (∑ i ∈ Finset.range k, ∑ j ∈ Finset.range k,
          numerator s ksel neg k i j * (win s.pmem s.source0 bp ((k - 1) / 2) y x c i j : Int))
        (divisor s ksel k))

/-- With RADIUS 0 to 3 and operands in order, MEDIAN under every boundary policy completes without fault and stores at each (y, x, c) the median of the (2r+1)^2 samples of the window itself; every other byte and every register but the report is unchanged. (43_median.md R191, 43_median.md R190) -/
def Obligations.MedianStoresTheWindowMedian : Prop :=
  ∀ (s : State) (bp : BoundaryPolicy) (r : Nat), r ≤ 3 → UnaryReady s →
    Computes (.median bp (r : Int)) s fun y x c =>
      median (windowList (2 * r + 1) (win s.pmem s.source0 bp r y x c))

/-- With a non-empty angle set and operands in order, SOBEL under every boundary policy completes without fault and stores at each (y, x, c) the clipped rounded square root of the sum, over the selected angles, of the square of the unclipped response; every other byte and every register but the report is unchanged. (45_sobel.md R231, 45_sobel.md R233, 45_sobel.md R234, 45_sobel.md R239) -/
def Obligations.SobelStoresTheGradientMagnitude : Prop :=
  ∀ (s : State) (bp : BoundaryPolicy) (angles : BitVec 4), angles ≠ 0#4 → UnaryReady s →
    Computes (.sobel bp angles) s fun y x c =>
      clip (rneSqrt (∑ a ∈ Finset.range 4, if angles.getLsbD a then
        (∑ i ∈ Finset.range 3, ∑ j ∈ Finset.range 3,
          kromValue (336 + 9 * a + 3 * i + j) * (win s.pmem s.source0 bp 1 y x c i j : Int)) ^ 2 else 0).toNat)

/-- With both sources valid, of one shape, and the destination fitting and disjoint from both (the sources may overlap or coincide), ADD stores min(255, a+b), SUB stores a-b or 0, MUL stores min(255, a*b), DIV stores 0 where b = 0 and otherwise the nearest integer to a/b, ties to even, which needs no clip; every other byte and every register but the report is unchanged. (46_arith.md R251, 46_arith.md R253, 46_arith.md R255, 46_arith.md R257, 46_arith.md R259) -/
def Obligations.BufferArithmeticSaturates : Prop :=
  ∀ s : State, BinaryReady s →
    Computes .add s (fun y x c => min 255 (s.pix0 y x c + s.pix1 y x c)) ∧
    Computes .sub s (fun y x c => s.pix0 y x c - s.pix1 y x c) ∧
    Computes .mul s (fun y x c => min 255 (s.pix0 y x c * s.pix1 y x c)) ∧
    Computes .div s (fun y x c =>
      if s.pix1 y x c = 0 then 0 else (rneDiv (s.pix0 y x c : Int) (s.pix1 y x c : Int)).toNat)

/-- With operands in order and any scalar, S the signed 24-bit value of SCALAR: ADDS stores clip(rne_div(256a+S, 256)), SUBS clip(rne_div(256a-S, 256)), MULS clip(rne_div(a*S, 256)), DIVS 0 where S = 0 and otherwise clip(rne_div(256a, S)), so all 0 for every non-positive S; every other byte and every register but the report is unchanged. (46_arith.md R250, 46_arith.md R251, 46_arith.md R254, 46_arith.md R256, 46_arith.md R258, 46_arith.md R260) -/
def Obligations.ScalarArithmeticRoundsThenSaturates : Prop :=
  ∀ s : State, UnaryReady s →
    Computes .adds s (fun y x c => clip (rneDiv (256 * (s.pix0 y x c : Int) + s.scalar.toInt) 256)) ∧
    Computes .subs s (fun y x c => clip (rneDiv (256 * (s.pix0 y x c : Int) - s.scalar.toInt) 256)) ∧
    Computes .muls s (fun y x c => clip (rneDiv ((s.pix0 y x c : Int) * s.scalar.toInt) 256)) ∧
    Computes .divs s (fun y x c =>
      if s.scalar.toInt ≤ 0 then 0 else clip (rneDiv (256 * (s.pix0 y x c : Int)) s.scalar.toInt))

/-- With GAMMA positive and operands in order, GAMMA completes without fault and stores gamma_map(a, G) at each element; every other byte and every register but the report is unchanged. (46_arith.md R267, 46_arith.md R269) -/
def Obligations.GammaStoresTheRemappedPixel : Prop :=
  ∀ s : State, 0 < s.gamma.toInt → UnaryReady s →
    Computes .gamma s fun y x c => gammaMap (s.pix0 y x c) s.gamma.toInt.toNat

/-- With a three-channel source and the H*W byte destination fitting and disjoint, GRAY completes without fault: standard stores the nearest integer to (299R + 587G + 114B)/1000, ties to even, which needs no clip, and the channel modes store R, G or B; every byte outside the H*W destination bytes and every register but the report is unchanged. (47_gray.md R281, 47_gray.md R282, 47_gray.md R284, 47_gray.md R285) -/
def Obligations.GrayStoresOneChannel : Prop :=
  ∀ (s : State) (mode : GrayMode), GrayReady s →
    ∃ t, exec (.gray mode) s = .next t ∧ CompletedOk s t ∧
      WritesBuffer s t s.dstBase.toNat s.src0.height.toNat s.src0.width.toNat 1 fun y x _ =>
        match mode with
        | .standard => (rneDiv (299 * (s.pix0 y x 0 : Int) + 587 * (s.pix0 y x 1 : Int) + 114 * (s.pix0 y x 2 : Int))
            1000).toNat
        | .redOnly => s.pix0 y x 0
        | .greenOnly => s.pix0 y x 1
        | .blueOnly => s.pix0 y x 2

/-- CONV faults with KernelSizeMismatch when KSIDE is even; else with UnsupportedSize when KSIDE > 7; else with UnsupportedSize when a Sobel table has KSIDE not 3; else with InvalidDivisor when the KRAM kernel has KDIV = 0; and otherwise with none of these three causes. KDIV plays no part for another kernel. (R173) -/
def Obligations.ConvParameterFaults : Prop :=
  ∀ (s : State) (bp : BoundaryPolicy) (ksel : KernelSel) (neg : Bool) (k : Nat),
    (k % 2 = 0 → Faults (.conv bp ksel neg k) s .kernelSizeMismatch) ∧
    (k % 2 = 1 → 7 < k → Faults (.conv bp ksel neg k) s .unsupportedSize) ∧
    (k = 1 ∨ k = 5 ∨ k = 7 → ksel ∈ [.sobel0, .sobel45, .sobel90, .sobel135] →
      Faults (.conv bp ksel neg k) s .unsupportedSize) ∧
    (k = 1 ∨ k = 3 ∨ k = 5 ∨ k = 7 → ksel = .kram → s.kdiv = 0#24 →
      Faults (.conv bp ksel neg k) s .invalidDivisor) ∧
    ((k = 1 ∨ k = 3 ∨ k = 5 ∨ k = 7) → (ksel ∈ [.sobel0, .sobel45, .sobel90, .sobel135] → k = 3) →
      (ksel = .kram → s.kdiv ≠ 0#24) →
      ∀ c ∈ [Cause.kernelSizeMismatch, .unsupportedSize, .invalidDivisor], ¬ Faults (.conv bp ksel neg k) s c)

/-- MEDIAN faults with InvalidRadius when RADIUS < 0, with UnsupportedSize when RADIUS > 3, and with neither for RADIUS 0 to 3. (R192) -/
def Obligations.MedianParameterFaults : Prop :=
  ∀ (s : State) (bp : BoundaryPolicy) (r : Int),
    (r < 0 → Faults (.median bp r) s .invalidRadius) ∧
    (3 < r → Faults (.median bp r) s .unsupportedSize) ∧
    (0 ≤ r → r ≤ 3 → ¬ Faults (.median bp r) s .invalidRadius ∧ ¬ Faults (.median bp r) s .unsupportedSize)

/-- SOBEL with ANGLES = 0 faults with EmptyAngleSet; with any other value it never does. (R232) -/
def Obligations.SobelNeedsAnAngle : Prop :=
  ∀ (s : State) (bp : BoundaryPolicy) (angles : BitVec 4),
    (angles = 0#4 → Faults (.sobel bp angles) s .emptyAngleSet) ∧
    (angles ≠ 0#4 → ¬ Faults (.sobel bp angles) s .emptyAngleSet)

/-- GAMMA faults with InvalidGamma when register GAMMA holds 0x0000 or 0x8000 to 0xFFFF; for 1 to 32767 it never does. (R270) -/
def Obligations.GammaMustBePositive : Prop :=
  ∀ s : State,
    (s.gamma = 0#16 ∨ 0x8000 ≤ s.gamma.toNat → Faults .gamma s .invalidGamma) ∧
    (1 ≤ s.gamma.toNat → s.gamma.toNat ≤ 32767 → ¬ Faults .gamma s .invalidGamma)

/-- For every command but NOP whose parameters pass: an invalid source 0 faults with InvalidShape; with source 0 valid, GRAY in every mode faults with UnsupportedChannelCount unless it has three channels; ADD, SUB, MUL, DIV fault with InvalidShape when source 1 is invalid, and with ShapeMismatch when both are valid and differ in height, width or channels. (R295, R283) -/
def Obligations.ShapeFaultsInTheirOrder : Prop :=
  (∀ (i : Instr) (s : State), i ≠ .nop → ParamsPass i s → ¬ ValidShape s.src0 → Faults i s .invalidShape) ∧
  (∀ (mode : GrayMode) (s : State), ValidShape s.src0 → s.src0.channels.toNat ≠ 3 →
    Faults (.gray mode) s .unsupportedChannelCount) ∧
  (∀ (i : Instr) (s : State), i ∈ [Instr.add, .sub, .mul, .div] → ValidShape s.src0 → ¬ ValidShape s.src1 →
    Faults i s .invalidShape) ∧
  (∀ (i : Instr) (s : State), i ∈ [Instr.add, .sub, .mul, .div] → ValidShape s.src0 → ValidShape s.src1 →
    ¬ SameShape s → Faults i s .shapeMismatch)

/-- For every command but NOP whose parameters and shapes pass: AddressRange when source 0 does not fit; else when a source 1 the command reads does not fit; else when the destination does not fit; else BufferOverlap when the destination overlaps source 0 or a source 1 the command reads; and otherwise the command completes without fault. Sources may overlap each other. (R296) -/
def Obligations.AddressFaultsInTheirOrder : Prop :=
  ∀ (i : Instr) (s : State), i ≠ .nop → ParamsPass i s → ShapesPass i s →
    (¬ Fits s.src0.base.toNat (byteCount s.src0) → Faults i s .addressRange) ∧
    (Fits s.src0.base.toNat (byteCount s.src0) → readsSource1 i = true →
      ¬ Fits s.src1.base.toNat (byteCount s.src0) → Faults i s .addressRange) ∧
    (Fits s.src0.base.toNat (byteCount s.src0) →
      (readsSource1 i = true → Fits s.src1.base.toNat (byteCount s.src0)) →
      ¬ Fits (destRange i s).1 (destRange i s).2 → Faults i s .addressRange) ∧
    (Fits s.src0.base.toNat (byteCount s.src0) →
      (readsSource1 i = true → Fits s.src1.base.toNat (byteCount s.src0)) →
      Fits (destRange i s).1 (destRange i s).2 →
      ((Overlap (destRange i s).1 (destRange i s).2 s.src0.base.toNat (byteCount s.src0) ∨
        (readsSource1 i = true ∧
          Overlap (destRange i s).1 (destRange i s).2 s.src1.base.toNat (byteCount s.src0))) →
        Faults i s .bufferOverlap) ∧
      (¬ Overlap (destRange i s).1 (destRange i s).2 s.src0.base.toNat (byteCount s.src0) →
        (readsSource1 i = true →
          ¬ Overlap (destRange i s).1 (destRange i s).2 s.src1.base.toNat (byteCount s.src0)) →
        ∃ t, exec i s = .next t ∧ CompletedOk s t))

/-- For every integer v: clip(v) = 0 if v < 0, 255 if v > 255, and v itself otherwise. (40_common_execute.md R130) -/
def Obligations.ClipSaturates : Prop :=
  ∀ v : Int, (v < 0 → clip v = 0) ∧ (255 < v → clip v = 255) ∧ (0 ≤ v → v ≤ 255 → (clip v : Int) = v)

/-- For every n and every non-zero d, of either sign: rne_div(n, d) is an integer within half of n/d (2|n - q*d| <= |d|), and where n/d lies exactly half-way it is even. These two facts determine it. (40_common_execute.md R131) -/
def Obligations.RneDivRoundsToNearestTiesToEven : Prop :=
  ∀ n d : Int, d ≠ 0 →
    2 * |n - rneDiv n d * d| ≤ |d| ∧ (2 * |n - rneDiv n d * d| = |d| → rneDiv n d % 2 = 0)

/-- For every n and positive d: rounding n/d to nearest even and then clipping gives the same as clamping the rational n/d into [0, 255] first (a numerator below 0 becomes 0, one above 255*d becomes 255*d) and then rounding. (40_common_execute.md R132) -/
def Obligations.RoundThenClipEqualsClipThenRound : Prop :=
  ∀ n d : Int, 0 < d → (clip (rneDiv n d) : Int) = rneDiv (max 0 (min (255 * d) n)) d

/-- For every natural s, rne_sqrt(s) differs from the real square root of s by less than one half. (40_common_execute.md R133) -/
def Obligations.RneSqrtRoundsToNearest : Prop :=
  ∀ s : Nat, |(rneSqrt s : ℝ) - Real.sqrt (s : ℝ)| < 1 / 2

/-- For every side N >= 1 and integer t: mirror(t, N) is a coordinate below N; it is t inside the image, -t-1 for -N <= t < 0, 2N-1-t for N <= t < 2N, and has period 2N. (41_window_engine.md R155) -/
def Obligations.MirrorReflectsAtTheOuterEdge : Prop :=
  ∀ (n : Nat) (t : Int), 1 ≤ n →
    mirror t n < n ∧
    (0 ≤ t → t < n → (mirror t n : Int) = t) ∧
    (-(n : Int) ≤ t → t < 0 → (mirror t n : Int) = -t - 1) ∧
    ((n : Int) ≤ t → t < 2 * n → (mirror t n : Int) = 2 * n - 1 - t) ∧
    mirror (t + 2 * n) n = mirror t n

/-- On a buffer with H, W >= 1: at a coordinate inside the image all three policies give the pixel there; zero-fill gives 0 outside; replicate gives the pixel at the nearest row and the nearest column of the image, each axis for itself; reflect gives the pixel at (mirror(yy, H), mirror(xx, W)); and every replicate or reflect sample is the value of some pixel of the same channel. (41_window_engine.md R152, 41_window_engine.md R153, 41_window_engine.md R154, 41_window_engine.md R155, 41_window_engine.md R156) -/
def Obligations.BoundaryPoliciesSourceSamplesAsStated : Prop :=
  ∀ (m : Memory) (b : Buffer) (bp : BoundaryPolicy) (yy xx : Int) (c : Nat), 1 ≤ b.h → 1 ≤ b.w →
    (0 ≤ yy → yy < b.h → 0 ≤ xx → xx < b.w → sample m b bp yy xx c = pix m b yy.toNat xx.toNat c) ∧
    (¬ (0 ≤ yy ∧ yy < b.h ∧ 0 ≤ xx ∧ xx < b.w) → sample m b .zeroFill yy xx c = 0) ∧
    (sample m b .replicate yy xx c =
      pix m b (max 0 (min yy (b.h - 1))).toNat (max 0 (min xx (b.w - 1))).toNat c) ∧
    (sample m b .reflect yy xx c = pix m b (mirror yy b.h) (mirror xx b.w) c) ∧
    (bp ≠ .zeroFill → ∃ y x, y < b.h ∧ x < b.w ∧ sample m b bp yy xx c = pix m b y x c)

/-- For every non-empty list of n values: the median is one of them, at most (n-1)/2 of them are smaller, and more than (n-1)/2 of them are at most as large. These facts determine it. (43_median.md R190, 43_median.md R196) -/
def Obligations.MedianIsTheLowerMiddle : Prop :=
  ∀ l : List Nat, l ≠ [] →
    median l ∈ l ∧
    l.countP (fun v => decide (v < median l)) ≤ (l.length - 1) / 2 ∧
    (l.length - 1) / 2 < l.countP (fun v => decide (v ≤ median l))

/-- For every side 1, 3, 5, 7 and every window index: identity is 1 at the centre and 0 elsewhere over 1; mean is 1 over k*k; sharpen is 2k*k-1 at the centre and -1 elsewhere over k*k; the gaussian numerators and divisors are the printed ones and the numerators sum to the divisor; KROMDIV is the printed directory; the four Sobel tables are the printed ones, which the specification itself takes from general knowledge (R210, 93_implementation_defined.md G1; log entry 19, PRESUMED). Each Sobel table, side 3, equals the negation of its 180-degree rotation, sums to 0 and has divisor 1. (44_kernel_rom.md R202, 44_kernel_rom.md R203, 44_kernel_rom.md R204, 44_kernel_rom.md R205, 44_kernel_rom.md R206, 44_kernel_rom.md R208, 44_kernel_rom.md R210, 44_kernel_rom.md R211, 44_kernel_rom.md R212, log entry 19) -/
def Obligations.KernelRomHoldsTheFamilies : Prop :=
  ∀ s : State, ∀ k ∈ [1, 3, 5, 7],
    divisor s .ident k = 1 ∧ divisor s .mean k = k * k ∧ divisor s .sharpen k = k * k ∧
    (∀ i ∈ List.range k, ∀ j ∈ List.range k,
      numerator s .ident false k i j = (if i = (k - 1) / 2 ∧ j = (k - 1) / 2 then 1 else 0) ∧
      numerator s .mean false k i j = 1 ∧
      numerator s .sharpen false k i j =
        (if i = (k - 1) / 2 ∧ j = (k - 1) / 2 then 2 * (k : Int) * k - 1 else -1)) ∧
    weightedSum k (numerator s .gauss false k) (fun _ _ => 1) = divisor s .gauss k ∧
    (∀ ksel ∈ [KernelSel.sobel0, .sobel45, .sobel90, .sobel135],
      divisor s ksel 3 = 1 ∧ weightedSum 3 (numerator s ksel false 3) (fun _ _ => 1) = 0 ∧
      ∀ i ∈ List.range 3, ∀ j ∈ List.range 3,
        numerator s ksel false 3 (2 - i) (2 - j) = -(numerator s ksel false 3 i j) ∧
        numerator s ksel true 3 i j = -(numerator s ksel false 3 i j)) ∧
    kernelRows s .gauss 1 = [[16384]] ∧
    kernelRows s .gauss 3 = [[300, 2217, 300], [2217, 16384, 2217], [300, 2217, 300]] ∧
    kernelRows s .gauss 5 =
      [[52, 448, 920, 448, 52], [448, 3882, 7975, 3882, 448], [920, 7975, 16384, 7975, 920],
       [448, 3882, 7975, 3882, 448], [52, 448, 920, 448, 52]] ∧
    kernelRows s .gauss 7 =
      [[22, 138, 416, 601, 416, 138, 22], [138, 867, 2611, 3769, 2611, 867, 138],
       [416, 2611, 7859, 11347, 7859, 2611, 416], [601, 3769, 11347, 16384, 11347, 3769, 601],
       [416, 2611, 7859, 11347, 7859, 2611, 416], [138, 867, 2611, 3769, 2611, 867, 138],
       [22, 138, 416, 601, 416, 138, 22]] ∧
    divisor s .gauss 1 = 16384 ∧ divisor s .gauss 3 = 26452 ∧ divisor s .gauss 5 = 71284 ∧
    divisor s .gauss 7 = 139564 ∧
    kromDiv = [1, 1, 1, 1, 1, 9, 25, 49, 16384, 26452, 71284, 139564, 1, 9, 25, 49, 1, 1, 1, 1] ∧
    kernelRows s .sobel0 3 = [[-1, 0, 1], [-2, 0, 2], [-1, 0, 1]] ∧
    kernelRows s .sobel45 3 = [[0, 1, 2], [-1, 0, 1], [-2, -1, 0]] ∧
    kernelRows s .sobel90 3 = [[1, 2, 1], [0, 0, 0], [-1, -2, -1]] ∧
    kernelRows s .sobel135 3 = [[2, 1, 0], [1, 0, -1], [0, -1, -2]]

/-- For every pixel p in 0..255 and every G >= 1, gamma_map(p, G) differs from the real number 255*(p/255)^(G/256) by less than one half. (46_arith.md R268) -/
def Obligations.GammaMapRoundsTheRealPower : Prop :=
  ∀ p G : Nat, p ≤ 255 → 1 ≤ G →
    |(gammaMap p G : ℝ) - 255 * ((p : ℝ) / 255) ^ ((G : ℝ) / 256)| < 1 / 2

/-- For every G >= 1: gamma_map(0, G) = 0 and gamma_map(255, G) = 255; gamma_map(p, 256) = p for p <= 255; it does not decrease with p, does not increase with G for p <= 255, and never exceeds 255. (46_arith.md R269) -/
def Obligations.GammaMapLaws : Prop :=
  (∀ G, 1 ≤ G → gammaMap 0 G = 0 ∧ gammaMap 255 G = 255) ∧
  (∀ p, p ≤ 255 → gammaMap p 256 = p) ∧
  (∀ p q G, p ≤ q → gammaMap p G ≤ gammaMap q G) ∧
  (∀ p G H, p ≤ 255 → G ≤ H → gammaMap p H ≤ gammaMap p G) ∧
  (∀ p G, gammaMap p G ≤ 255)

/-- For every state, policy, kernel, sign and side of at most 7, at every position the accumulator of CONV satisfies |acc| <= 49*32768*255 = 409436160 < 2^31. (R176) -/
def Obligations.AccumulatorNeverOverflows : Prop :=
  ∀ (s : State) (bp : BoundaryPolicy) (ksel : KernelSel) (neg : Bool) (k y x c : Nat), k ≤ 7 →
    |convAcc s bp ksel neg k y x c| ≤ 409436160 ∧ (409436160 : Int) < 2 ^ 31

/-- At every position every response lies in -1020..1020, the sum of squares is at most 4161600 < 2^22, and its rounded root is at most 2040. The positive numerators of each Sobel table sum to 4 and the negative ones to -4. All of it rests on the sums of the four Sobel tables, whose numbers the specification takes from general knowledge (R210, log entry 19, PRESUMED). (45_sobel.md R236, 44_kernel_rom.md R210, 44_kernel_rom.md R212, log entry 19) -/
def Obligations.SobelIntermediatesFit : Prop :=
  (∀ (s : State) (bp : BoundaryPolicy) (angles : BitVec 4) (a y x c : Nat), a < 4 →
    -1020 ≤ sobelResponse s bp a y x c ∧ sobelResponse s bp a y x c ≤ 1020 ∧
    sobelSquares s bp angles y x c ≤ 4161600 ∧ (4161600 : Int) < 2 ^ 22 ∧
    rneSqrt (sobelSquares s bp angles y x c).toNat ≤ 2040) ∧
  (∀ a, a < 4 →
    (∑ i ∈ Finset.range 3, ∑ j ∈ Finset.range 3, max 0 (sobelNumerator a i j)) = 4 ∧
    (∑ i ∈ Finset.range 3, ∑ j ∈ Finset.range 3, min 0 (sobelNumerator a i j)) = -4)

/-- For every boundary policy and side 1, 3, 5, 7, with operands in order, CONV with the identity kernel writes out(y, x, c) = the source pixel at (y, x, c). (R178) -/
def Obligations.IdentityConvolutionCopiesTheSource : Prop :=
  ∀ (s : State) (bp : BoundaryPolicy) (k : Nat), (k = 1 ∨ k = 3 ∨ k = 5 ∨ k = 7) → UnaryReady s →
    Computes (.conv bp .ident false k) s fun y x c => s.pix0 y x c

/-- With a non-empty angle set and operands in order, if every pixel of a channel of source 0 equals v, then under replicate and reflect every output of that channel is 0 (stated for a source all of whose channels are constant). (45_sobel.md R237, 41_window_engine.md R156) -/
def Obligations.SobelOfConstantWindowsIsZero : Prop :=
  ∀ (s : State) (bp : BoundaryPolicy) (angles : BitVec 4) (v : Nat → Nat), bp ≠ .zeroFill → angles ≠ 0#4 →
    UnaryReady s →
    (∀ y x c, y < s.src0.height.toNat → x < s.src0.width.toNat → c < s.src0.channels.toNat → s.pix0 y x c = v c) →
    Computes (.sobel bp angles) s fun _ _ _ => 0

/-- For the four normalised ROM families at every side, with operands in order, if every pixel of each channel c of source 0 equals v(c), then under replicate and reflect CONV writes v(c) everywhere in channel c. (42_linear_filter.md R180, 44_kernel_rom.md R212) -/
def Obligations.NormalisedKernelsKeepConstants : Prop :=
  ∀ (s : State) (bp : BoundaryPolicy) (ksel : KernelSel) (k : Nat) (v : Nat → Nat), bp ≠ .zeroFill →
    ksel ∈ [KernelSel.ident, .mean, .gauss, .sharpen] → (k = 1 ∨ k = 3 ∨ k = 5 ∨ k = 7) → UnaryReady s →
    (∀ y x c, y < s.src0.height.toNat → x < s.src0.width.toNat → c < s.src0.channels.toNat → s.pix0 y x c = v c) →
    Computes (.conv bp ksel false k) s fun _ _ c => v c

/-- State.reset meets the invariant: canonical pixel memory, a silent report while busy, a legal cause code, ERR only beside a cause, ESTICKY bit 0 clear. (70_reset_and_hazards.md R330, 10_state.md R43) -/
def Obligations.ResetMeetsTheInvariant : Prop :=
  State.reset.Inv

/-- From every state that meets it, every step gives a state that meets it: pixel memory stays canonical and inside its 2^24 addresses, DONE, ERR and CAUSE stay 0 while a command runs, CAUSE stays a code of 60_exceptions.md R291, ERR stands only beside a non-zero CAUSE, and ESTICKY bit 0 stays 0. (10_state.md R27, 10_state.md R43, 40_common_execute.md R121, 60_exceptions.md R291, 60_exceptions.md R300, 70_reset_and_hazards.md R338) -/
def Obligations.EveryStepKeepsTheInvariant : Prop :=
  ∀ s t : State, s.Inv → step s = .next t → t.Inv

/-- An aligned 32-bit write to CTRL with bit 31 = 0 sets IE_DONE to bit 0 and IE_ERR to bit 1 of the word, ignores bits 30:2, and changes nothing else, in either engine state. (turns and resp are the model's own fields, log entries 1 and 7.) (10_state.md R24) -/
def Obligations.CtrlWriteSetsTheEnables : Prop :=
  ∀ (s : State) (v : Word) (rest : List Turn), s.turns = .regWrite 32 0x008 v :: rest → v.getLsbD 31 = false →
    step s = .next { s with
      turns := rest, resp := .okWrite, ieDone := v.getLsbD 0, ieErr := v.getLsbD 1 }

/-- For the ROM families at sides 1, 3, 5, 7 numerator (i, j) is KROM[84*KSEL + off + i*k + j] and the divisor KROMDIV[4*KSEL + (k-1)/2]; for the Sobel kernels they are KROM[336 + 9*(KSEL-4) + 3*i + j] and KROMDIV[16 + KSEL-4]; for the KRAM kernel numerator (i, j) is entry i*k + j of the field kram read as a signed 16-bit number and the divisor is the field kdiv, unsigned. NEG negates every numerator of every kernel, exactly, and never the divisor. (42_linear_filter.md R174, 44_kernel_rom.md R200, 44_kernel_rom.md R203, 10_state.md R38, 10_state.md R40) -/
def Obligations.KernelIsResolvedFromKromOrKram : Prop :=
  ∀ (s : State) (neg : Bool),
    (∀ f ∈ [(KernelSel.ident, 0), (.mean, 1), (.gauss, 2), (.sharpen, 3)],
      ∀ q ∈ [(1, 0), (3, 1), (5, 10), (7, 35)],
      divisor s f.1 q.1 = kromDiv.getD (4 * f.2 + (q.1 - 1) / 2) 0 ∧
      ∀ i j, i < q.1 → j < q.1 →
        numerator s f.1 neg q.1 i j = negSign neg * krom.getD (84 * f.2 + q.2 + i * q.1 + j) 0) ∧
    (∀ f ∈ [(KernelSel.sobel0, 4), (.sobel45, 5), (.sobel90, 6), (.sobel135, 7)],
      divisor s f.1 3 = kromDiv.getD (16 + (f.2 - 4)) 0 ∧
      ∀ i j, i < 3 → j < 3 →
        numerator s f.1 neg 3 i j = negSign neg * krom.getD (336 + 9 * (f.2 - 4) + i * 3 + j) 0) ∧
    (∀ k ∈ [1, 3, 5, 7],
      divisor s .kram k = s.kdiv.toNat ∧
      ∀ i j, i < k → j < k → ∃ h : i * k + j < 49,
        numerator s .kram neg k i j = negSign neg * (s.kram[i * k + j]'h).toInt)
end

