-- ==== Sys2Proof/Laws/State.lean ====
section
/-! SUPPORT. What each update of the state does to each field: one lemma per field and update, so that no later proof
unfolds a record update. -/

namespace Sys2Proof.Machine

/-! ### `State.launch` -/

@[simp] theorem State.launch_ieDone (s : State) (w : Word) : (s.launch w).ieDone = s.ieDone := rfl
@[simp] theorem State.launch_ieErr (s : State) (w : Word) : (s.launch w).ieErr = s.ieErr := rfl
@[simp] theorem State.launch_busy (s : State) (w : Word) : (s.launch w).busy = true := rfl
@[simp] theorem State.launch_done (s : State) (w : Word) : (s.launch w).done = false := rfl
@[simp] theorem State.launch_err (s : State) (w : Word) : (s.launch w).err = false := rfl
@[simp] theorem State.launch_cause (s : State) (w : Word) : (s.launch w).cause = 0#5 := rfl
@[simp] theorem State.launch_esticky (s : State) (w : Word) : (s.launch w).esticky = s.esticky := rfl
@[simp] theorem State.launch_cmd (s : State) (w : Word) : (s.launch w).cmd = w := rfl
@[simp] theorem State.launch_src0 (s : State) (w : Word) : (s.launch w).src0 = s.src0 := rfl
@[simp] theorem State.launch_src1 (s : State) (w : Word) : (s.launch w).src1 = s.src1 := rfl
@[simp] theorem State.launch_dstBase (s : State) (w : Word) : (s.launch w).dstBase = s.dstBase := rfl
@[simp] theorem State.launch_scalar (s : State) (w : Word) : (s.launch w).scalar = s.scalar := rfl
@[simp] theorem State.launch_gamma (s : State) (w : Word) : (s.launch w).gamma = s.gamma := rfl
@[simp] theorem State.launch_kdiv (s : State) (w : Word) : (s.launch w).kdiv = s.kdiv := rfl
@[simp] theorem State.launch_kram (s : State) (w : Word) : (s.launch w).kram = s.kram := rfl
@[simp] theorem State.launch_pmem (s : State) (w : Word) : (s.launch w).pmem = s.pmem := rfl
@[simp] theorem State.launch_turns (s : State) (w : Word) : (s.launch w).turns = s.turns := rfl
@[simp] theorem State.launch_resp (s : State) (w : Word) : (s.launch w).resp = s.resp := rfl
@[simp] theorem State.launch_fresh (s : State) (w : Word) : (s.launch w).fresh = s.fresh := rfl

/-! ### `State.complete` -/

@[simp] theorem State.complete_ieDone (s : State) (code : BitVec 5) : (s.complete code).ieDone = s.ieDone := rfl
@[simp] theorem State.complete_ieErr (s : State) (code : BitVec 5) : (s.complete code).ieErr = s.ieErr := rfl
@[simp] theorem State.complete_busy (s : State) (code : BitVec 5) : (s.complete code).busy = false := rfl
@[simp] theorem State.complete_done (s : State) (code : BitVec 5) : (s.complete code).done = true := rfl
@[simp] theorem State.complete_err (s : State) (code : BitVec 5) : (s.complete code).err = if code = 0#5 then s.err else true := rfl
@[simp] theorem State.complete_cause (s : State) (code : BitVec 5) : (s.complete code).cause = code := rfl
@[simp] theorem State.complete_esticky (s : State) (code : BitVec 5) : (s.complete code).esticky = if code = 0#5 then s.esticky else s.esticky ||| (1#14 <<< code.toNat) := rfl
@[simp] theorem State.complete_cmd (s : State) (code : BitVec 5) : (s.complete code).cmd = s.cmd := rfl
@[simp] theorem State.complete_src0 (s : State) (code : BitVec 5) : (s.complete code).src0 = s.src0 := rfl
@[simp] theorem State.complete_src1 (s : State) (code : BitVec 5) : (s.complete code).src1 = s.src1 := rfl
@[simp] theorem State.complete_dstBase (s : State) (code : BitVec 5) : (s.complete code).dstBase = s.dstBase := rfl
@[simp] theorem State.complete_scalar (s : State) (code : BitVec 5) : (s.complete code).scalar = s.scalar := rfl
@[simp] theorem State.complete_gamma (s : State) (code : BitVec 5) : (s.complete code).gamma = s.gamma := rfl
@[simp] theorem State.complete_kdiv (s : State) (code : BitVec 5) : (s.complete code).kdiv = s.kdiv := rfl
@[simp] theorem State.complete_kram (s : State) (code : BitVec 5) : (s.complete code).kram = s.kram := rfl
@[simp] theorem State.complete_pmem (s : State) (code : BitVec 5) : (s.complete code).pmem = s.pmem := rfl
@[simp] theorem State.complete_turns (s : State) (code : BitVec 5) : (s.complete code).turns = s.turns := rfl
@[simp] theorem State.complete_resp (s : State) (code : BitVec 5) : (s.complete code).resp = s.resp := rfl
@[simp] theorem State.complete_fresh (s : State) (code : BitVec 5) : (s.complete code).fresh = s.fresh := rfl

/-! ### `State.writeStatus` -/

@[simp] theorem State.writeStatus_ieDone (s : State) (v : Word) : (s.writeStatus v).ieDone = s.ieDone := rfl
@[simp] theorem State.writeStatus_ieErr (s : State) (v : Word) : (s.writeStatus v).ieErr = s.ieErr := rfl
@[simp] theorem State.writeStatus_busy (s : State) (v : Word) : (s.writeStatus v).busy = s.busy := rfl
@[simp] theorem State.writeStatus_done (s : State) (v : Word) : (s.writeStatus v).done = (s.done && !v.getLsbD 1) := rfl
@[simp] theorem State.writeStatus_err (s : State) (v : Word) : (s.writeStatus v).err = (s.err && !v.getLsbD 2) := rfl
@[simp] theorem State.writeStatus_cause (s : State) (v : Word) : (s.writeStatus v).cause = s.cause := rfl
@[simp] theorem State.writeStatus_esticky (s : State) (v : Word) : (s.writeStatus v).esticky = s.esticky := rfl
@[simp] theorem State.writeStatus_cmd (s : State) (v : Word) : (s.writeStatus v).cmd = s.cmd := rfl
@[simp] theorem State.writeStatus_src0 (s : State) (v : Word) : (s.writeStatus v).src0 = s.src0 := rfl
@[simp] theorem State.writeStatus_src1 (s : State) (v : Word) : (s.writeStatus v).src1 = s.src1 := rfl
@[simp] theorem State.writeStatus_dstBase (s : State) (v : Word) : (s.writeStatus v).dstBase = s.dstBase := rfl
@[simp] theorem State.writeStatus_scalar (s : State) (v : Word) : (s.writeStatus v).scalar = s.scalar := rfl
@[simp] theorem State.writeStatus_gamma (s : State) (v : Word) : (s.writeStatus v).gamma = s.gamma := rfl
@[simp] theorem State.writeStatus_kdiv (s : State) (v : Word) : (s.writeStatus v).kdiv = s.kdiv := rfl
@[simp] theorem State.writeStatus_kram (s : State) (v : Word) : (s.writeStatus v).kram = s.kram := rfl
@[simp] theorem State.writeStatus_pmem (s : State) (v : Word) : (s.writeStatus v).pmem = s.pmem := rfl
@[simp] theorem State.writeStatus_turns (s : State) (v : Word) : (s.writeStatus v).turns = s.turns := rfl
@[simp] theorem State.writeStatus_resp (s : State) (v : Word) : (s.writeStatus v).resp = s.resp := rfl
@[simp] theorem State.writeStatus_fresh (s : State) (v : Word) : (s.writeStatus v).fresh = s.fresh := rfl

/-! ### `State.writeEsticky` -/

@[simp] theorem State.writeEsticky_ieDone (s : State) (v : Word) : (s.writeEsticky v).ieDone = s.ieDone := rfl
@[simp] theorem State.writeEsticky_ieErr (s : State) (v : Word) : (s.writeEsticky v).ieErr = s.ieErr := rfl
@[simp] theorem State.writeEsticky_busy (s : State) (v : Word) : (s.writeEsticky v).busy = s.busy := rfl
@[simp] theorem State.writeEsticky_done (s : State) (v : Word) : (s.writeEsticky v).done = s.done := rfl
@[simp] theorem State.writeEsticky_err (s : State) (v : Word) : (s.writeEsticky v).err = s.err := rfl
@[simp] theorem State.writeEsticky_cause (s : State) (v : Word) : (s.writeEsticky v).cause = s.cause := rfl
@[simp] theorem State.writeEsticky_esticky (s : State) (v : Word) : (s.writeEsticky v).esticky = s.esticky &&& ~~~(v.setWidth 14) := rfl
@[simp] theorem State.writeEsticky_cmd (s : State) (v : Word) : (s.writeEsticky v).cmd = s.cmd := rfl
@[simp] theorem State.writeEsticky_src0 (s : State) (v : Word) : (s.writeEsticky v).src0 = s.src0 := rfl
@[simp] theorem State.writeEsticky_src1 (s : State) (v : Word) : (s.writeEsticky v).src1 = s.src1 := rfl
@[simp] theorem State.writeEsticky_dstBase (s : State) (v : Word) : (s.writeEsticky v).dstBase = s.dstBase := rfl
@[simp] theorem State.writeEsticky_scalar (s : State) (v : Word) : (s.writeEsticky v).scalar = s.scalar := rfl
@[simp] theorem State.writeEsticky_gamma (s : State) (v : Word) : (s.writeEsticky v).gamma = s.gamma := rfl
@[simp] theorem State.writeEsticky_kdiv (s : State) (v : Word) : (s.writeEsticky v).kdiv = s.kdiv := rfl
@[simp] theorem State.writeEsticky_kram (s : State) (v : Word) : (s.writeEsticky v).kram = s.kram := rfl
@[simp] theorem State.writeEsticky_pmem (s : State) (v : Word) : (s.writeEsticky v).pmem = s.pmem := rfl
@[simp] theorem State.writeEsticky_turns (s : State) (v : Word) : (s.writeEsticky v).turns = s.turns := rfl
@[simp] theorem State.writeEsticky_resp (s : State) (v : Word) : (s.writeEsticky v).resp = s.resp := rfl
@[simp] theorem State.writeEsticky_fresh (s : State) (v : Word) : (s.writeEsticky v).fresh = s.fresh := rfl

/-! ### `State.writeEnables` -/

@[simp] theorem State.writeEnables_ieDone (s : State) (v : Word) : (s.writeEnables v).ieDone = v.getLsbD 0 := rfl
@[simp] theorem State.writeEnables_ieErr (s : State) (v : Word) : (s.writeEnables v).ieErr = v.getLsbD 1 := rfl
@[simp] theorem State.writeEnables_busy (s : State) (v : Word) : (s.writeEnables v).busy = s.busy := rfl
@[simp] theorem State.writeEnables_done (s : State) (v : Word) : (s.writeEnables v).done = s.done := rfl
@[simp] theorem State.writeEnables_err (s : State) (v : Word) : (s.writeEnables v).err = s.err := rfl
@[simp] theorem State.writeEnables_cause (s : State) (v : Word) : (s.writeEnables v).cause = s.cause := rfl
@[simp] theorem State.writeEnables_esticky (s : State) (v : Word) : (s.writeEnables v).esticky = s.esticky := rfl
@[simp] theorem State.writeEnables_cmd (s : State) (v : Word) : (s.writeEnables v).cmd = s.cmd := rfl
@[simp] theorem State.writeEnables_src0 (s : State) (v : Word) : (s.writeEnables v).src0 = s.src0 := rfl
@[simp] theorem State.writeEnables_src1 (s : State) (v : Word) : (s.writeEnables v).src1 = s.src1 := rfl
@[simp] theorem State.writeEnables_dstBase (s : State) (v : Word) : (s.writeEnables v).dstBase = s.dstBase := rfl
@[simp] theorem State.writeEnables_scalar (s : State) (v : Word) : (s.writeEnables v).scalar = s.scalar := rfl
@[simp] theorem State.writeEnables_gamma (s : State) (v : Word) : (s.writeEnables v).gamma = s.gamma := rfl
@[simp] theorem State.writeEnables_kdiv (s : State) (v : Word) : (s.writeEnables v).kdiv = s.kdiv := rfl
@[simp] theorem State.writeEnables_kram (s : State) (v : Word) : (s.writeEnables v).kram = s.kram := rfl
@[simp] theorem State.writeEnables_pmem (s : State) (v : Word) : (s.writeEnables v).pmem = s.pmem := rfl
@[simp] theorem State.writeEnables_turns (s : State) (v : Word) : (s.writeEnables v).turns = s.turns := rfl
@[simp] theorem State.writeEnables_resp (s : State) (v : Word) : (s.writeEnables v).resp = s.resp := rfl
@[simp] theorem State.writeEnables_fresh (s : State) (v : Word) : (s.writeEnables v).fresh = s.fresh := rfl

/-! ### `State.setRefused` -/

@[simp] theorem State.setRefused_ieDone (s : State) : s.setRefused.ieDone = s.ieDone := rfl
@[simp] theorem State.setRefused_ieErr (s : State) : s.setRefused.ieErr = s.ieErr := rfl
@[simp] theorem State.setRefused_busy (s : State) : s.setRefused.busy = s.busy := rfl
@[simp] theorem State.setRefused_done (s : State) : s.setRefused.done = s.done := rfl
@[simp] theorem State.setRefused_err (s : State) : s.setRefused.err = s.err := rfl
@[simp] theorem State.setRefused_cause (s : State) : s.setRefused.cause = s.cause := rfl
@[simp] theorem State.setRefused_esticky (s : State) : s.setRefused.esticky = s.esticky ||| (1#14 <<< 13) := rfl
@[simp] theorem State.setRefused_cmd (s : State) : s.setRefused.cmd = s.cmd := rfl
@[simp] theorem State.setRefused_src0 (s : State) : s.setRefused.src0 = s.src0 := rfl
@[simp] theorem State.setRefused_src1 (s : State) : s.setRefused.src1 = s.src1 := rfl
@[simp] theorem State.setRefused_dstBase (s : State) : s.setRefused.dstBase = s.dstBase := rfl
@[simp] theorem State.setRefused_scalar (s : State) : s.setRefused.scalar = s.scalar := rfl
@[simp] theorem State.setRefused_gamma (s : State) : s.setRefused.gamma = s.gamma := rfl
@[simp] theorem State.setRefused_kdiv (s : State) : s.setRefused.kdiv = s.kdiv := rfl
@[simp] theorem State.setRefused_kram (s : State) : s.setRefused.kram = s.kram := rfl
@[simp] theorem State.setRefused_pmem (s : State) : s.setRefused.pmem = s.pmem := rfl
@[simp] theorem State.setRefused_turns (s : State) : s.setRefused.turns = s.turns := rfl
@[simp] theorem State.setRefused_resp (s : State) : s.setRefused.resp = s.resp := rfl
@[simp] theorem State.setRefused_fresh (s : State) : s.setRefused.fresh = s.fresh := rfl

/-! ### `State.resetRegisters` -/

@[simp] theorem State.resetRegisters_ieDone (s : State) : s.resetRegisters.ieDone = State.reset.ieDone := rfl
@[simp] theorem State.resetRegisters_ieErr (s : State) : s.resetRegisters.ieErr = State.reset.ieErr := rfl
@[simp] theorem State.resetRegisters_busy (s : State) : s.resetRegisters.busy = State.reset.busy := rfl
@[simp] theorem State.resetRegisters_done (s : State) : s.resetRegisters.done = State.reset.done := rfl
@[simp] theorem State.resetRegisters_err (s : State) : s.resetRegisters.err = State.reset.err := rfl
@[simp] theorem State.resetRegisters_cause (s : State) : s.resetRegisters.cause = State.reset.cause := rfl
@[simp] theorem State.resetRegisters_esticky (s : State) : s.resetRegisters.esticky = State.reset.esticky := rfl
@[simp] theorem State.resetRegisters_cmd (s : State) : s.resetRegisters.cmd = State.reset.cmd := rfl
@[simp] theorem State.resetRegisters_src0 (s : State) : s.resetRegisters.src0 = State.reset.src0 := rfl
@[simp] theorem State.resetRegisters_src1 (s : State) : s.resetRegisters.src1 = State.reset.src1 := rfl
@[simp] theorem State.resetRegisters_dstBase (s : State) : s.resetRegisters.dstBase = State.reset.dstBase := rfl
@[simp] theorem State.resetRegisters_scalar (s : State) : s.resetRegisters.scalar = State.reset.scalar := rfl
@[simp] theorem State.resetRegisters_gamma (s : State) : s.resetRegisters.gamma = State.reset.gamma := rfl
@[simp] theorem State.resetRegisters_kdiv (s : State) : s.resetRegisters.kdiv = State.reset.kdiv := rfl
@[simp] theorem State.resetRegisters_kram (s : State) : s.resetRegisters.kram = State.reset.kram := rfl
@[simp] theorem State.resetRegisters_pmem (s : State) : s.resetRegisters.pmem = s.pmem := rfl
@[simp] theorem State.resetRegisters_turns (s : State) : s.resetRegisters.turns = s.turns := rfl
@[simp] theorem State.resetRegisters_resp (s : State) : s.resetRegisters.resp = s.resp := rfl
@[simp] theorem State.resetRegisters_fresh (s : State) : s.resetRegisters.fresh = s.fresh := rfl

/-! ### `State.afterTurn` -/

@[simp] theorem State.afterTurn_ieDone (s : State) : s.afterTurn.ieDone = s.ieDone := rfl
@[simp] theorem State.afterTurn_ieErr (s : State) : s.afterTurn.ieErr = s.ieErr := rfl
@[simp] theorem State.afterTurn_busy (s : State) : s.afterTurn.busy = s.busy := rfl
@[simp] theorem State.afterTurn_done (s : State) : s.afterTurn.done = s.done := rfl
@[simp] theorem State.afterTurn_err (s : State) : s.afterTurn.err = s.err := rfl
@[simp] theorem State.afterTurn_cause (s : State) : s.afterTurn.cause = s.cause := rfl
@[simp] theorem State.afterTurn_esticky (s : State) : s.afterTurn.esticky = s.esticky := rfl
@[simp] theorem State.afterTurn_cmd (s : State) : s.afterTurn.cmd = s.cmd := rfl
@[simp] theorem State.afterTurn_src0 (s : State) : s.afterTurn.src0 = s.src0 := rfl
@[simp] theorem State.afterTurn_src1 (s : State) : s.afterTurn.src1 = s.src1 := rfl
@[simp] theorem State.afterTurn_dstBase (s : State) : s.afterTurn.dstBase = s.dstBase := rfl
@[simp] theorem State.afterTurn_scalar (s : State) : s.afterTurn.scalar = s.scalar := rfl
@[simp] theorem State.afterTurn_gamma (s : State) : s.afterTurn.gamma = s.gamma := rfl
@[simp] theorem State.afterTurn_kdiv (s : State) : s.afterTurn.kdiv = s.kdiv := rfl
@[simp] theorem State.afterTurn_kram (s : State) : s.afterTurn.kram = s.kram := rfl
@[simp] theorem State.afterTurn_pmem (s : State) : s.afterTurn.pmem = s.pmem := rfl
@[simp] theorem State.afterTurn_turns (s : State) : s.afterTurn.turns = s.turns.tail := rfl
@[simp] theorem State.afterTurn_resp (s : State) : s.afterTurn.resp = s.resp := rfl
@[simp] theorem State.afterTurn_fresh (s : State) : s.afterTurn.fresh = s.fresh := rfl

/-! ### The reset values (10_state.md R21) -/

@[simp] theorem State.reset_ieDone : State.reset.ieDone = false := rfl
@[simp] theorem State.reset_ieErr : State.reset.ieErr = false := rfl
@[simp] theorem State.reset_busy : State.reset.busy = false := rfl
@[simp] theorem State.reset_done : State.reset.done = false := rfl
@[simp] theorem State.reset_err : State.reset.err = false := rfl
@[simp] theorem State.reset_cause : State.reset.cause = 0#5 := rfl
@[simp] theorem State.reset_esticky : State.reset.esticky = 0#14 := rfl
@[simp] theorem State.reset_cmd : State.reset.cmd = 0x00000000#32 := rfl
@[simp] theorem State.reset_dstBase : State.reset.dstBase = 0#24 := rfl
@[simp] theorem State.reset_scalar : State.reset.scalar = 0#24 := rfl
@[simp] theorem State.reset_gamma : State.reset.gamma = 0x0100#16 := rfl
@[simp] theorem State.reset_kdiv : State.reset.kdiv = 0x000001#24 := rfl
@[simp] theorem State.reset_pmem : State.reset.pmem = [] := rfl

/-- A raise is a completion with the cause's code. -/
@[simp] theorem State.raise_eq (s : State) (c : Cause) : s.raise c = s.complete c.code := rfl

end Sys2Proof.Machine
end

