-- ==== Sys2Proof/Laws/Arith.lean ====
section
/-! SUPPORT. The laws of the clip and rounding unit that its users cite: the range of `clip`, what `isqrt` is, and the
division step of `rne_div`. -/

namespace Sys2Proof.Machine

/-- Every stored value is an intensity (40_common_execute.md R130). -/
theorem clip_le (v : Int) : clip v ≤ 255 := by
  unfold clip
  split
  · omega
  · split <;> omega

/-- `clip` fixes the intensities. -/
theorem clip_of_nat (n : Nat) (h : n ≤ 255) : clip (n : Int) = n := by
  unfold clip
  rw [if_neg (by omega), if_neg (by omega)]
  rfl

/-- `clip` as one expression. -/
theorem clip_eq (v : Int) : (clip v : Int) = max 0 (min 255 v) := by
  unfold clip
  split
  · omega
  · split <;> omega

/-- The bits of the root: from an `acc` within `2^b` of the root, `isqrtBits` ends at the root. -/
theorem isqrtBits_spec (s b acc : Nat) (hl : acc * acc ≤ s) (hu : s < (acc + 2 ^ b) * (acc + 2 ^ b)) :
    isqrtBits s b acc * isqrtBits s b acc ≤ s ∧ s < (isqrtBits s b acc + 1) * (isqrtBits s b acc + 1) := by
  induction b generalizing acc with
  | zero => exact ⟨hl, by simpa [isqrtBits] using hu⟩
  | succ b ih =>
    simp only [isqrtBits]
    by_cases h : (acc + 2 ^ b) * (acc + 2 ^ b) ≤ s
    · rw [if_pos h]
      refine ih _ h ?_
      have e : acc + 2 ^ b + 2 ^ b = acc + 2 ^ (b + 1) := by rw [pow_succ]; omega
      rw [e]; exact hu
    · rw [if_neg h]
      exact ih _ hl (by omega)

/-- `isqrt s` is the largest `n` with `n*n ≤ s` (40_common_execute.md R133). -/
theorem isqrt_spec (s : Nat) : isqrt s * isqrt s ≤ s ∧ s < (isqrt s + 1) * (isqrt s + 1) := by
  refine isqrtBits_spec s _ 0 (Nat.zero_le _) ?_
  have h : s < 2 ^ (s.log2 + 1) := Nat.lt_log2_self
  calc s < 2 ^ (s.log2 + 1) := h
    _ ≤ 2 ^ ((s.log2 / 2 + 1) + (s.log2 / 2 + 1)) := Nat.pow_le_pow_right (by omega) (by omega)
    _ = (0 + 2 ^ (s.log2 / 2 + 1)) * (0 + 2 ^ (s.log2 / 2 + 1)) := by rw [pow_add]; simp

/-- The quotient and the remainder that `rne_div` rounds by, for a positive divisor (40_common_execute.md R131). -/
theorem rneDivPos_cases (n d : Int) (hd : 0 < d) :
    ∃ q m, n = q * d + m ∧ 0 ≤ m ∧ m < d ∧
      rneDivPos n d = if 2 * m < d then q else if 2 * m > d then q + 1 else if q % 2 = 0 then q else q + 1 := by
  refine ⟨n / d, n - n / d * d, by omega, ?_, ?_, rfl⟩
  · have := Int.emod_nonneg n (by omega : d ≠ 0)
    have := Int.emod_add_mul_ediv n d
    nlinarith [Int.mul_comm d (n / d)]
  · have := Int.emod_lt_of_pos n hd
    have := Int.emod_add_mul_ediv n d
    nlinarith [Int.mul_comm d (n / d)]

end Sys2Proof.Machine
end

