-- ==== Sys2Proof/Laws/Memory.lean ====
section
/-! SUPPORT. The laws of pixel memory: a read after a write, that writes leave other places alone, that every operation
keeps the canonical form, and that canonical memories which list the same bytes are equal. -/

namespace Sys2Proof.Machine

/-- Strictly rising addresses: the part of the canonical form that `put` keeps at any address. -/
abbrev Memory.sorted (m : Memory) : Prop := m.Pairwise fun p q => p.1 < q.1

@[simp] theorem Memory.value?_nil (a : Nat) : Memory.value? [] a = none := rfl

theorem Memory.value?_cons (i : Nat) (v : Byte) (m : Memory) (a : Nat) :
    Memory.value? ((i, v) :: m) a = if i = a then some v else Memory.value? m a := rfl

theorem Memory.value?_put (m : Memory) (a k : Nat) (b : Byte) :
    Memory.value? (Memory.put m a b) k = if k = a then some b else Memory.value? m k := by
  induction m with
  | nil => simp [Memory.put, Memory.value?_cons, eq_comm]
  | cons p rest ih =>
    obtain ⟨i, v⟩ := p
    simp only [Memory.put]
    split
    · by_cases hk : k = a
      · simp [Memory.value?_cons, hk]
      · simp [Memory.value?_cons, hk, Ne.symm hk]
    · split
      · next h =>
        subst h
        by_cases hk : k = a
        · simp [Memory.value?_cons, hk]
        · simp [Memory.value?_cons, hk, Ne.symm hk]
      · next h1 h2 =>
        simp only [Memory.value?_cons, ih]
        by_cases hk : i = k
        · subst hk; simp [Ne.symm h2]
        · simp [hk]

/-- A read after a write (10_state.md R43). -/
theorem Memory.read_put (m : Memory) (a k : Nat) (b : Byte) :
    Memory.read (Memory.put m a b) k = if k = a then b else Memory.read m k := by
  simp only [Memory.read, Memory.value?_put]
  by_cases h : k = a <;> simp [h]

@[simp] theorem Memory.read_put_same (m : Memory) (a : Nat) (b : Byte) :
    Memory.read (Memory.put m a b) a = b := by simp [Memory.read_put]

theorem Memory.read_put_other (m : Memory) (a k : Nat) (b : Byte) (h : k ≠ a) :
    Memory.read (Memory.put m a b) k = Memory.read m k := by simp [Memory.read_put, h]

theorem Memory.mem_put (m : Memory) (a : Nat) (b : Byte) (p : Nat × Byte) (h : p ∈ Memory.put m a b) :
    p = (a, b) ∨ p ∈ m := by
  induction m with
  | nil => simpa [Memory.put] using h
  | cons q rest ih =>
    obtain ⟨i, v⟩ := q
    simp only [Memory.put] at h
    split at h
    · simpa using h
    · split at h <;> simp only [List.mem_cons] at h ⊢ <;> tauto

theorem Memory.sorted_put (m : Memory) (a : Nat) (b : Byte) (hm : Memory.sorted m) :
    Memory.sorted (Memory.put m a b) := by
  induction m with
  | nil => simp [Memory.put]
  | cons q rest ih =>
    obtain ⟨i, v⟩ := q
    have hlt : ∀ q ∈ rest, i < q.1 := fun q hq => List.rel_of_pairwise_cons hm hq
    simp only [Memory.put]
    split
    · next hai =>
      refine List.pairwise_cons.2 ⟨fun q hq => ?_, hm⟩
      rcases List.mem_cons.1 hq with rfl | hq
      · exact hai
      · exact lt_trans hai (hlt q hq)
    · split
      · next hai => subst hai; exact List.pairwise_cons.2 ⟨hlt, hm.of_cons⟩
      · refine List.pairwise_cons.2 ⟨fun q hq => ?_, ih hm.of_cons⟩
        rcases Memory.mem_put rest a b q hq with rfl | hq
        · show i < a
          omega
        · exact hlt q hq

@[simp] theorem Memory.wf_nil : Memory.wf [] := by simp [Memory.wf]

/-- A write inside PMEM keeps the canonical form. -/
theorem Memory.wf_put (m : Memory) (a : Nat) (b : Byte) (hm : Memory.wf m) (ha : a < Config.pmemSize) :
    Memory.wf (Memory.put m a b) := by
  refine ⟨Memory.sorted_put m a b hm.1, fun p hp => ?_⟩
  rcases Memory.mem_put m a b p hp with rfl | hp
  · exact ha
  · exact hm.2 p hp

/-- A run of writes inside PMEM keeps the canonical form. -/
theorem Memory.wf_fill (m : Memory) (a n : Nat) (f : Nat → Byte) (hm : Memory.wf m)
    (ha : a + n ≤ Config.pmemSize) : Memory.wf (Memory.fill m a n f) := by
  induction n with
  | zero => exact hm
  | succ n ih => exact Memory.wf_put _ _ _ (ih (by omega)) (by omega)

/-- What a run of writes leaves at every address. -/
theorem Memory.read_fill (m : Memory) (a n : Nat) (f : Nat → Byte) (k : Nat) :
    Memory.read (Memory.fill m a n f) k = if a ≤ k ∧ k < a + n then f (k - a) else Memory.read m k := by
  induction n with
  | zero => rw [if_neg (by omega)]; rfl
  | succ n ih =>
    simp only [Memory.fill, Memory.read_put, ih]
    by_cases h : k = a + n
    · subst h; simp
    · rw [if_neg h]
      by_cases h2 : a ≤ k ∧ k < a + n
      · rw [if_pos h2, if_pos (by omega)]
      · rw [if_neg h2, if_neg (by omega)]

/-- What the output traversal leaves at every address (40_common_execute.md R124). -/
theorem Memory.read_store (m : Memory) (d : Buffer) (out : Nat → Nat → Nat → Nat) (k : Nat) :
    Memory.read (Memory.store m d out) k =
      if d.base ≤ k ∧ k < d.base + d.size then outputByte d out (k - d.base) else Memory.read m k :=
  Memory.read_fill m d.base d.size _ k

/-- An address a listed byte lies above is unlisted. -/
theorem Memory.value?_eq_none (m : Memory) (a : Nat) (h : ∀ p ∈ m, a < p.1) : Memory.value? m a = none := by
  induction m with
  | nil => rfl
  | cons p rest ih =>
    obtain ⟨i, v⟩ := p
    have hi : a < i := h (i, v) (by simp)
    rw [Memory.value?_cons, if_neg (by omega)]
    exact ih fun q hq => h q (by simp [hq])

/-- Canonical memories that list the same bytes are the same data. -/
theorem Memory.ext_of_sorted (m n : Memory) (hm : Memory.sorted m) (hn : Memory.sorted n)
    (h : ∀ a, Memory.value? m a = Memory.value? n a) : m = n := by
  induction m generalizing n with
  | nil =>
    cases n with
    | nil => rfl
    | cons q _ => have := h q.1; simp [Memory.value?] at this
  | cons p rest ih =>
    obtain ⟨i, v⟩ := p
    cases n with
    | nil => have := h i; simp [Memory.value?] at this
    | cons q rest' =>
      obtain ⟨j, w⟩ := q
      have hlt : ∀ q ∈ rest, i < q.1 := fun q hq => List.rel_of_pairwise_cons hm hq
      have hlt' : ∀ q ∈ rest', j < q.1 := fun q hq => List.rel_of_pairwise_cons hn hq
      have hij : i = j := by
        rcases lt_trichotomy i j with hlt1 | h1 | hlt1
        · have h2 : Memory.value? ((j, w) :: rest') i = none :=
            Memory.value?_eq_none _ _ fun q hq => by
              rcases List.mem_cons.1 hq with rfl | hq
              · exact hlt1
              · exact lt_trans hlt1 (hlt' q hq)
          have := h i
          rw [h2] at this
          simp [Memory.value?] at this
        · exact h1
        · have h2 : Memory.value? ((i, v) :: rest) j = none :=
            Memory.value?_eq_none _ _ fun q hq => by
              rcases List.mem_cons.1 hq with rfl | hq
              · exact hlt1
              · exact lt_trans hlt1 (hlt q hq)
          have := h j
          rw [h2] at this
          simp [Memory.value?] at this
      subst hij
      have hv : v = w := by simpa [Memory.value?_cons] using h i
      subst hv
      have hrest : rest = rest' := ih rest' hm.of_cons hn.of_cons fun a => by
        have ha := h a
        by_cases e : i = a
        · subst e
          rw [Memory.value?_eq_none rest i hlt, Memory.value?_eq_none rest' i hlt']
        · simpa [Memory.value?_cons, e] using ha
      rw [hrest]

end Sys2Proof.Machine
end

