-- ==== Sys2Proof/Laws/Command.lean ====
section
/-! SUPPORT. What a command can do, said once: every meaning finishes its result, a result is a fault of the first failing
check or the output behind the checks, and a finished result is a completion. -/

namespace Sys2Proof.Machine

open Host (Outcome)

/-- Every command finishes what it comes to (40_common_execute.md R122, R123). -/
theorem exec_eq (i : Instr) (s : State) : exec i s = .next (s.finish (commandResult i s)) := by
  cases i <;> rfl

theorem firstFailure_eq_none {cs : List (Bool × Cause)} :
    firstFailure cs = none ↔ ∀ p ∈ cs, p.1 = false := by
  induction cs with
  | nil => simp [firstFailure]
  | cons p rest ih =>
    obtain ⟨b, c⟩ := p
    cases b <;> simp [firstFailure, ih]

theorem firstFailure_append (as bs : List (Bool × Cause)) :
    firstFailure (as ++ bs) = (firstFailure as).or (firstFailure bs) := by
  induction as with
  | nil => simp [firstFailure]
  | cons p rest ih =>
    obtain ⟨b, c⟩ := p
    cases b <;> simp [firstFailure, ih]

/-- The cause of a fault is one of the checks' causes. -/
theorem firstFailure_mem {cs : List (Bool × Cause)} {c : Cause} (h : firstFailure cs = some c) :
    (true, c) ∈ cs := by
  induction cs with
  | nil => simp [firstFailure] at h
  | cons p rest ih =>
    obtain ⟨b, d⟩ := p
    cases b
    · exact List.mem_cons_of_mem _ (ih (by simpa [firstFailure] using h))
    · have : d = c := by simpa [firstFailure] using h
      subst this
      exact List.mem_cons_self

/-- A checked result is the fault of its first failing check, or the result behind the checks (60_exceptions.md R292). -/
theorem checked_cases (cs : List (Bool × Cause)) (r : CommandResult) :
    (∃ c, firstFailure cs = some c ∧ checked cs r = .fault c) ∨
    (firstFailure cs = none ∧ checked cs r = r) := by
  unfold checked
  cases h : firstFailure cs with
  | some c => exact .inl ⟨c, rfl, rfl⟩
  | none => exact .inr ⟨rfl, rfl⟩

theorem checked_of_pass {cs : List (Bool × Cause)} {r : CommandResult} (h : ∀ p ∈ cs, p.1 = false) :
    checked cs r = r := by
  simp [checked, firstFailure_eq_none.2 h]

/-- Finishing a result changes the report and, for an output, pixel memory; nothing else. -/
theorem State.finish_cases (s : State) (r : CommandResult) :
    (∃ c, r = .fault c ∧ s.finish r = s.complete c.code) ∨
    (r = .noOutput ∧ s.finish r = s.complete 0#5) ∨
    (∃ d out, r = .output d out ∧
      s.finish r = { s with pmem := Memory.store s.pmem d out }.complete 0#5) := by
  cases r with
  | fault c => exact .inl ⟨c, rfl, rfl⟩
  | noOutput => exact .inr (.inl ⟨rfl, rfl⟩)
  | output d out => exact .inr (.inr ⟨d, out, rfl, rfl⟩)

/-- No cause has code 0 or a code above 12 (60_exceptions.md R291). -/
theorem Cause.code_range (c : Cause) : c.code ≠ 0#5 ∧ 1 ≤ c.code.toNat ∧ c.code.toNat ≤ 12 := by
  cases c <;> decide

/-- Two causes with one code are one cause. -/
theorem Cause.code_inj (c d : Cause) (h : c.code = d.code) : c = d := by
  cases c <;> cases d <;> first | rfl | exact absurd h (by decide)

/-- A completion without fault, field by field. -/
theorem State.complete_ok (s : State) : CompletedOk s (s.complete 0#5) := rfl

/-- A completion with a fault, field by field. -/
theorem State.complete_fault (s : State) (c : Cause) : CompletedFault s (s.complete c.code) c := by
  have h := (Cause.code_range c).1
  simp [CompletedFault, State.complete, h]

/-- The destination of an output is one of the two the rules give (10_state.md R35, 47_gray.md R281), and its checks have
passed. -/
theorem commandResult_output (i : Instr) (s : State) (d : Buffer) (out : Nat → Nat → Nat → Nat)
    (h : commandResult i s = .output d out) : d.fits = true ∧ (d = s.dest ∨ d = s.destGray) := by
  have key : ∀ (cs : List (Bool × Cause)) (e : Buffer) (o : Nat → Nat → Nat → Nat), rangeCheck e ∈ cs →
      checked cs (.output e o) = .output d out → d.fits = true ∧ d = e := by
    intro cs e o hmem hc
    rcases checked_cases cs (.output e o) with ⟨c, -, hf⟩ | ⟨hn, hr⟩
    · rw [hf] at hc; cases hc
    · rw [hr] at hc
      cases hc
      have := firstFailure_eq_none.1 hn _ hmem
      exact ⟨by simpa [rangeCheck] using this, rfl⟩
  cases i with
  | nop => cases h
  | gray mode =>
    have := key _ _ _ (by simp [State.grayChecks, addressChecks1]) h
    exact ⟨this.1, .inr this.2⟩
  | conv bp ksel neg k =>
    have := key _ _ _ (by simp [State.unaryChecks, addressChecks1]) h
    exact ⟨this.1, .inl this.2⟩
  | median bp r =>
    have := key _ _ _ (by simp [State.unaryChecks, addressChecks1]) h
    exact ⟨this.1, .inl this.2⟩
  | sobel bp a =>
    have := key _ _ _ (by simp [State.unaryChecks, addressChecks1]) h
    exact ⟨this.1, .inl this.2⟩
  | add =>
    have := key _ _ _ (by simp [State.binaryChecks, addressChecks2]) h
    exact ⟨this.1, .inl this.2⟩
  | sub =>
    have := key _ _ _ (by simp [State.binaryChecks, addressChecks2]) h
    exact ⟨this.1, .inl this.2⟩
  | mul =>
    have := key _ _ _ (by simp [State.binaryChecks, addressChecks2]) h
    exact ⟨this.1, .inl this.2⟩
  | div =>
    have := key _ _ _ (by simp [State.binaryChecks, addressChecks2]) h
    exact ⟨this.1, .inl this.2⟩
  | adds =>
    have := key _ _ _ (by simp [State.unaryChecks, addressChecks1]) h
    exact ⟨this.1, .inl this.2⟩
  | subs =>
    have := key _ _ _ (by simp [State.unaryChecks, addressChecks1]) h
    exact ⟨this.1, .inl this.2⟩
  | muls =>
    have := key _ _ _ (by simp [State.unaryChecks, addressChecks1]) h
    exact ⟨this.1, .inl this.2⟩
  | divs =>
    have := key _ _ _ (by simp [State.unaryChecks, addressChecks1]) h
    exact ⟨this.1, .inl this.2⟩
  | gamma =>
    have := key _ _ _ (by simp [State.unaryChecks, addressChecks1]) h
    exact ⟨this.1, .inl this.2⟩

end Sys2Proof.Machine
end

