-- ==== Sys2Proof/Laws/Step.lean ====
section
/-! SUPPORT. What a step can do, said once: the engine's turn, a host access or a reset, always to a next state. -/

namespace Sys2Proof.Machine

open Host (Outcome)

/-- The engine's turn: nothing when idle; otherwise the completion of the running command, or of an illegal word. -/
theorem engineTurn_cases (s : State) :
    (s.busy = false ∧ engineTurn s = .next s) ∨
    (s.busy = true ∧ ∃ i, decode s.cmd = .ok i ∧ engineTurn s = .next (s.finish (commandResult i s))) ∨
    (s.busy = true ∧ ∃ e, decode s.cmd = .error e ∧ engineTurn s = .next (s.complete Cause.illegalCommand.code)) := by
  unfold engineTurn State.fetchWord
  cases hb : s.busy with
  | false => exact .inl ⟨rfl, rfl⟩
  | true =>
    cases hd : decode s.cmd with
    | ok i => exact .inr (.inl ⟨rfl, i, rfl, exec_eq i s⟩)
    | error e => exact .inr (.inr ⟨rfl, e, rfl, rfl⟩)

/-- Every step is the engine's turn or a turn of the host or of the reset input, on the state with that turn taken off. -/
theorem step_cases (s : State) :
    (s.engineNext ∧ step s = engineTurn s.afterTurn) ∨
    (∃ t rest, t ≠ .engine ∧ s.turns = t :: rest ∧ step s = .next (s.afterTurn.hostTurn t)) := by
  unfold step
  cases h : s.turns with
  | nil =>
    refine .inl ⟨.inl h, ?_⟩
    have : s.afterTurn = s := by cases s; simp_all [State.afterTurn]
    rw [this]
  | cons t rest =>
    have ha : s.afterTurn = { s with turns := rest } := by simp [State.afterTurn, h]
    rw [ha]
    cases t with
    | engine => exact .inl ⟨.inr ⟨rest, h⟩, rfl⟩
    | hardReset => exact .inr ⟨_, rest, by simp, rfl, rfl⟩
    | regRead w o => exact .inr ⟨_, rest, by simp, rfl, rfl⟩
    | regWrite w o v => exact .inr ⟨_, rest, by simp, rfl, rfl⟩
    | pixRead w a => exact .inr ⟨_, rest, by simp, rfl, rfl⟩
    | pixWrite w a b => exact .inr ⟨_, rest, by simp, rfl, rfl⟩

/-- A turn of the host or of the reset input leaves the schedule as it is. -/
theorem State.hostTurn_turns (s : State) (t : Turn) : (s.hostTurn t).turns = s.turns := by
  have hr : s.doReset.turns = s.turns := by
    simp only [State.doReset, State.abort]
    split <;> rfl
  have hw : ∀ r v, (s.writeReg r v).turns = s.turns := by
    intro r v
    cases r <;> first | rfl | (simp only [State.writeReg, State.writeCtrl]; split; exact hr; rfl)
  cases t with
  | regRead w o => simp only [State.hostTurn, State.hostRegRead]; split <;> rfl
  | regWrite w o v =>
    simp only [State.hostTurn, State.hostRegWrite]
    split
    · exact hw _ _
    · rfl
  | pixRead w a => simp only [State.hostTurn, State.hostPixRead]; split <;> rfl
  | pixWrite w a b => simp only [State.hostTurn, State.hostPixWrite]; split <;> rfl
  | hardReset => exact hr
  | engine => rfl

end Sys2Proof.Machine
end

