-- ==== Sys2Proof/Laws/PerInstr.lean ====
section
/-! SUPPORT. Facts about every command as syntax, one lemma for each constructor. Family `EncodesInRow`: the word of a
command selects the row of the opcode table that stands for it (30_encoding.md R103, R104). -/

namespace Sys2Proof.Laws.EncodesInRow

open Sys2Proof

/-- The word of the command selects its own row. -/
def Statement (i : Instr) : Prop := selectRow (encode i) = some i.op

theorem nop : Statement .nop := by unfold Statement; decide

theorem conv (bp : BoundaryPolicy) (ksel : KernelSel) (neg : Bool) (kside : Nat) :
    Statement (.conv bp ksel neg kside) := by
  show selectRow (assembleWord 1#4 bp.code ksel.code neg (BitVec.ofNat 4 kside) 0#4 false 0#2) = some .conv
  generalize bp.code = b, ksel.code = s, BitVec.ofNat 4 kside = size
  cases neg <;> revert b s size <;> decide +kernel

theorem median (bp : BoundaryPolicy) (radius : Int) : Statement (.median bp radius) := by
  show selectRow (assembleWord 2#4 bp.code 0#4 false (BitVec.ofInt 4 radius) 0#4 false 0#2) = some .median
  generalize bp.code = b, BitVec.ofInt 4 radius = size
  revert b size
  decide +kernel

theorem sobel (bp : BoundaryPolicy) (angles : BitVec 4) : Statement (.sobel bp angles) := by
  show selectRow (assembleWord 3#4 bp.code 0#4 false 0#4 angles false 0#2) = some .sobel
  generalize bp.code = b
  revert b angles
  decide +kernel

theorem add : Statement .add := by unfold Statement; decide
theorem adds : Statement .adds := by unfold Statement; decide
theorem sub : Statement .sub := by unfold Statement; decide
theorem subs : Statement .subs := by unfold Statement; decide
theorem mul : Statement .mul := by unfold Statement; decide
theorem muls : Statement .muls := by unfold Statement; decide
theorem div : Statement .div := by unfold Statement; decide
theorem divs : Statement .divs := by unfold Statement; decide
theorem gamma : Statement .gamma := by unfold Statement; decide

theorem gray (mode : GrayMode) : Statement (.gray mode) := by
  unfold Statement
  cases mode <;> decide

end Sys2Proof.Laws.EncodesInRow
end

