-- ==== Sys2Proof/Laws/Ready.lean ====
section
/-! SUPPORT. The checks of the meanings and the plain conditions of Safety.lean say the same: operands in order exactly
when every shape and address check passes. -/

namespace Sys2Proof.Machine

theorem Overlap_iff (a n b m : Nat) : Overlap a n b m ↔ max a b < min (a + n) (b + m) := by
  constructor
  · rintro ⟨k, h⟩; omega
  · intro h; exact ⟨max a b, by omega, by omega, by omega, by omega⟩

theorem validShape_iff (r : SourceRegs) : r.buffer.validShape = true ↔ ValidShape r := by
  simp only [Buffer.validShape, Bool.and_eq_true, Bool.or_eq_true, decide_eq_true_eq, and_assoc]
  rfl

theorem fits_iff (b : Buffer) : b.fits = true ↔ Fits b.base b.size := by
  simp only [Buffer.fits, decide_eq_true_eq]
  rfl

theorem overlaps_iff (a b : Buffer) : a.overlaps b = true ↔ Overlap a.base a.size b.base b.size := by
  rw [Overlap_iff, Buffer.overlaps, decide_eq_true_eq]

@[simp] theorem source0_base (s : State) : s.source0.base = s.src0.base.toNat := rfl
@[simp] theorem source0_size (s : State) : s.source0.size = byteCount s.src0 := rfl
@[simp] theorem source1_base (s : State) : s.source1.base = s.src1.base.toNat := rfl
@[simp] theorem source1_size (s : State) : s.source1.size = byteCount s.src1 := rfl
@[simp] theorem dest_base (s : State) : s.dest.base = s.dstBase.toNat := rfl
@[simp] theorem dest_size (s : State) : s.dest.size = byteCount s.src0 := rfl
@[simp] theorem destGray_base (s : State) : s.destGray.base = s.dstBase.toNat := rfl
@[simp] theorem destGray_size (s : State) : s.destGray.size = s.src0.height.toNat * s.src0.width.toNat := by
  simp [State.destGray, Buffer.size, State.source0, SourceRegs.buffer]

/-- The checks of a command with one source pass exactly when its operands are in order. -/
theorem unaryReady_iff (s : State) : UnaryReady s ↔ ∀ p ∈ s.unaryChecks, p.1 = false := by
  simp only [State.unaryChecks, addressChecks1, shapeCheck, rangeCheck, List.forall_mem_cons,
    List.not_mem_nil, false_implies, implies_true, and_true, Bool.not_eq_false', UnaryReady]
  rw [show s.source0.validShape = true ↔ ValidShape s.src0 from validShape_iff s.src0, fits_iff, fits_iff,
    ← Bool.not_eq_true, overlaps_iff]
  rfl

theorem sameShape_iff (s : State) : s.source0.sameShape s.source1 = true ↔ SameShape s := by
  simp only [Buffer.sameShape, State.source0, State.source1, SourceRegs.buffer, SameShape, Bool.and_eq_true,
    decide_eq_true_eq, BitVec.toNat_inj, and_assoc]
  constructor <;> rintro ⟨h1, h2, h3⟩ <;> exact ⟨h1.symm, h2.symm, h3.symm⟩

/-- A source of the shape of source 0 is valid with it. -/
theorem SameShape.valid {s : State} (h : SameShape s) : ValidShape s.src1 ↔ ValidShape s.src0 := by
  simp [ValidShape, h.1, h.2.1, h.2.2]

theorem SameShape.byteCount {s : State} (h : SameShape s) :
    Sys2Proof.Machine.byteCount s.src1 = Sys2Proof.Machine.byteCount s.src0 := by
  simp [Sys2Proof.Machine.byteCount, h.1, h.2.1, h.2.2]

/-- The checks of ADD, SUB, MUL, DIV pass exactly when their operands are in order. -/
theorem binaryReady_iff (s : State) : BinaryReady s ↔ ∀ p ∈ s.binaryChecks, p.1 = false := by
  simp only [State.binaryChecks, addressChecks2, shapeCheck, rangeCheck, List.forall_mem_cons,
    List.not_mem_nil, false_implies, implies_true, and_true, Bool.not_eq_false', Bool.or_eq_false_iff, BinaryReady,
    UnaryReady]
  rw [show s.source0.validShape = true ↔ ValidShape s.src0 from validShape_iff s.src0,
    show s.source1.validShape = true ↔ ValidShape s.src1 from validShape_iff s.src1, sameShape_iff, fits_iff, fits_iff,
    fits_iff, ← Bool.not_eq_true, ← Bool.not_eq_true, overlaps_iff, overlaps_iff]
  constructor
  · rintro ⟨⟨h1, h2, h3, h4⟩, h5, h6, h7⟩
    exact ⟨h1, h5.valid.2 h1, h5, h2, h6, h3, h4, h7⟩
  · rintro ⟨h1, -, h5, h2, h6, h3, h4, h7⟩
    exact ⟨⟨h1, h2, h3, h4⟩, h5, h6, h7⟩

/-- The checks of GRAY pass exactly when its operands are in order. -/
theorem grayReady_iff (s : State) : GrayReady s ↔ ∀ p ∈ s.grayChecks, p.1 = false := by
  simp only [State.grayChecks, addressChecks1, shapeCheck, rangeCheck, List.forall_mem_cons,
    List.not_mem_nil, false_implies, implies_true, and_true, Bool.not_eq_false', GrayReady]
  rw [show s.source0.validShape = true ↔ ValidShape s.src0 from validShape_iff s.src0, fits_iff, fits_iff,
    ← Bool.not_eq_true, ← Bool.not_eq_true, overlaps_iff]
  simp only [ValidShape, decide_eq_true_eq, not_not, destGray_base, destGray_size, source0_base, source0_size]
  have hc : s.source0.c = s.src0.channels.toNat := rfl
  rw [hc]
  constructor
  · rintro ⟨h1, h2, h3, h4, h5, h6⟩
    exact ⟨⟨h1, h2, .inr h3⟩, h3, h4, h5, h6⟩
  · rintro ⟨⟨h1, h2, -⟩, h3, h4, h5, h6⟩
    exact ⟨h1, h2, h3, h4, h5, h6⟩

end Sys2Proof.Machine
end

