-- ==== Sys2Proof/Tests/Slice0.lean ====
section
/-! SUPPORT. The model's own tests. Expected values are those printed in spec/95_test_vectors.md (vectors named at each
test) or in the rule named; none comes from running the model. The last part shows, for every statement of
Obligations.lean that has hypotheses, states and operands that meet them. -/

namespace Sys2Proof.Tests

set_option Elab.async false

open Sys2Proof Sys2Proof.Machine

/-! ### Well-formedness: the check of each number refuses the terms on either side of its range (30_encoding.md R97) -/

theorem test_wf_conv_kside_16_refused : ¬ (Instr.conv .replicate .mean false 16).WellFormed := by decide
theorem test_wf_conv_kside_15 : (Instr.conv .replicate .mean false 15).WellFormed := by decide
theorem test_wf_median_8_refused : ¬ (Instr.median .replicate 8).WellFormed := by decide
theorem test_wf_median_minus_9_refused : ¬ (Instr.median .replicate (-9)).WellFormed := by decide
theorem test_wf_median_ends :
    (Instr.median .replicate (-8)).WellFormed ∧ (Instr.median .replicate 7).WellFormed := by decide

/-! ### Decoding: words of V-DEC and of 30_encoding.md R104, R106 -/

theorem test_decode_nop : decode 0x00000000#32 = .ok .nop := by decide +kernel
theorem test_decode_conv :
    decode 0x19E60000#32 = .ok (.conv .reflect .sobel135 true 3) ∧
    decode 0x105E0000#32 = .ok (.conv .zeroFill .mean false 15) := by decide +kernel
/-- Bit by bit, from R91: `OP` 0001, `BP` 01, `KSEL` 0001, `NEG` 0, `SIZE` 0011, then 17 zeros. -/
theorem test_decode_conv_bits :
    decode 0b00010100010001100000000000000000#32 = .ok (.conv .replicate .mean false 3) := by decide +kernel
theorem test_decode_median :
    decode 0x20100000#32 = .ok (.median .zeroFill (-8)) ∧ decode 0x200E0000#32 = .ok (.median .zeroFill 7) ∧
    decode 0x201E0000#32 = .ok (.median .zeroFill (-1)) := by decide +kernel
theorem test_decode_sobel :
    decode 0x3400A000#32 = .ok (.sobel .replicate 0b0101#4) ∧ decode 0x30000000#32 = .ok (.sobel .zeroFill 0#4) := by
  decide +kernel
theorem test_decode_add : decode 0x40000000#32 = .ok .add := by decide +kernel
theorem test_decode_adds : decode 0x40001000#32 = .ok .adds := by decide +kernel
theorem test_decode_sub : decode 0x50000000#32 = .ok .sub := by decide +kernel
theorem test_decode_subs : decode 0x50001000#32 = .ok .subs := by decide +kernel
theorem test_decode_mul : decode 0x60000000#32 = .ok .mul := by decide +kernel
theorem test_decode_muls : decode 0x60001000#32 = .ok .muls := by decide +kernel
theorem test_decode_div : decode 0x70000000#32 = .ok .div := by decide +kernel
theorem test_decode_divs : decode 0x70001000#32 = .ok .divs := by decide +kernel
theorem test_decode_gamma : decode 0x80000000#32 = .ok .gamma := by decide +kernel
theorem test_decode_gray :
    decode 0x90000000#32 = .ok (.gray .standard) ∧ decode 0x90000400#32 = .ok (.gray .redOnly) ∧
    decode 0x90000800#32 = .ok (.gray .greenOnly) ∧ decode 0x90000C00#32 = .ok (.gray .blueOnly) := by decide +kernel

/-- The illegal words of V-DEC, each under its own name. -/
theorem test_decode_reserved_opcode :
    [0xA0000000#32, 0xB0000000#32, 0xC0000000#32, 0xD0000000#32, 0xE0000000#32, 0xF0000000#32, 0xFFFFFFFF#32].map decode =
      List.replicate 7 (.error .reservedOpcode) := by decide +kernel
theorem test_decode_stray_bit :
    [0x00000001#32, 0x10470000#32, 0x10460001#32, 0x20420000#32, 0x20220000#32, 0x30022000#32, 0x30003000#32,
        0x44000000#32, 0x40000400#32, 0x40003000#32, 0x80001000#32, 0x90001000#32, 0x90000E00#32].map decode =
      List.replicate 13 (.error .strayBit) := by decide +kernel
theorem test_decode_reserved_policy :
    [0x1C460000#32, 0x2C1E0000#32, 0x3C000000#32].map decode = List.replicate 3 (.error .reservedPolicy) := by
  decide +kernel
theorem test_decode_reserved_kernel :
    [0x12460000#32, 0x13C80000#32].map decode = List.replicate 2 (.error .reservedKernel) := by decide +kernel
theorem test_decode_table_word : decodeTableWord 32 0x90000800 = some (.gray .greenOnly) := by decide +kernel

/-- R106 and R107: spelling, expansion and word together. -/
theorem test_asm :
    (Instr.conv .replicate .sobel0 true 3).asm = ("conv.rep", ["sobel0", "3", "neg"]) ∧
    (Instr.sobel .replicate 0b0101#4).asm = ("sobel.rep", ["0", "90"]) ∧
    (Instr.sobel .zeroFill 0#4).asm = ("sobel.zero", ["none"]) ∧ (Instr.gray .greenOnly).asm = ("gray.g", []) := by
  decide +kernel
theorem test_pseudo :
    encode (Pseudo.sobelk .replicate .a180).expand = 0x15260000#32 ∧
    encode (Pseudo.gauss .reflect 5).expand = 0x188A0000#32 := by decide +kernel

/-! ### Primitives: V-PRIM -/

theorem test_clip : [-1, 0, 255, 256, -300, 482].map clip = [0, 0, 255, 255, 0, 255] := by decide +kernel
theorem test_rne_div :
    ([(5, 2), (7, 2), (-5, 2), (-7, 2), (1, 2), (3, 2), (-1, 2), (-3, 2), (1, 3), (2, 3), (-1, 3), (-2, 3), (0, 5),
        (9, 1), (5, -2), (-5, -2), (210, 9), (4335, 9), (-255, 9), (28500, 1000), (7500, 1000), (25856, 512),
        (2688, 256), (2944, 256), (1172, 8), (255, 2)] : List (Int × Int)).map (fun p => rneDiv p.1 p.2) =
      [2, 4, -2, -4, 0, 2, 0, -2, 0, 1, 0, -1, 0, 9, -2, 2, 23, 482, -28, 28, 8, 50, 10, 12, 146, 128] := by
  decide +kernel
theorem test_rne_sqrt :
    [0, 1, 2, 3, 4, 6, 7, 12, 13, 576, 3364, 3400, 65025, 2080800, 2210850, 4161600].map rneSqrt =
      [0, 1, 1, 2, 2, 2, 3, 3, 4, 24, 58, 58, 255, 1442, 1487, 2040] := by decide +kernel
theorem test_mirror :
    [-7, -6, -5, -4, -3, -2, -1, 0, 1, 2, 3, 4, 5, 6, 7, 8, 9].map (fun t => mirror t 3) =
      [0, 0, 1, 2, 2, 1, 0, 0, 1, 2, 2, 1, 0, 0, 1, 2, 2] := by decide +kernel
theorem test_replicate :
    [-3, -2, -1, 0, 1, 2, 3, 4, 5].map (fun t => replicateIndex t 3) = [0, 0, 0, 0, 1, 2, 2, 2, 2] := by decide +kernel

/-- 44_kernel_rom.md R213: 372 numerators and their sum; the entries V-HOST reads back at 0xAA0, 0xAA4, 0xAA8, 0xC04. -/
theorem test_krom :
    krom.length = 372 ∧ krom.sum = 253856 ∧ kromDiv.length = 20 ∧ kromValue 168 = 0x4000 ∧ kromValue 169 = 300 ∧ kromValue 170 = 2217 ∧
    kromValue 257 = 17 := by decide +kernel

/-! ### One step of each command on a small state

`image h w c l` is the source of shape `(h, w, c)` at address 0 with the bytes `l`, the destination at 0x1000. -/

/-- Pixel memory with the bytes `l` from address `a`. -/
def bytesFrom (a : Nat) (l : List Nat) : Memory := l.mapIdx fun i b => (a + i, BitVec.ofNat 8 b)

/-- The state described above. -/
def image (h w c : Nat) (l : List Nat) : State :=
  { State.reset with
    src0 := ⟨0#24, BitVec.ofNat 16 h, BitVec.ofNat 16 w, BitVec.ofNat 2 c⟩
    dstBase := 0x1000#24
    pmem := bytesFrom 0 l }

/-- A second source of the same shape at address 0x100. -/
def images (h w c : Nat) (l l' : List Nat) : State :=
  { image h w c l with
    src1 := ⟨0x100#24, BitVec.ofNat 16 h, BitVec.ofNat 16 w, BitVec.ofNat 2 c⟩
    pmem := bytesFrom 0 l ++ bytesFrom 0x100 l' }

/-- `STATUS`, `CAUSE`, `ESTICKY` and the `n` bytes at 0x1000 after one step that runs the word. -/
def after (s : State) (w : Nat) (n : Nat) : Option (Nat × Nat × Nat × List Nat) :=
  match step (s.withFetchWord 32 w) with
  | .next t => some (t.statusWord.toNat, t.cause.toNat, t.estickyWord.toNat,
      (List.range n).map fun i => (Memory.read t.pmem (0x1000 + i)).toNat)
  | .fault _ => none
  | .refused _ => none

/-- The image T9. -/
def t9 : State := image 3 3 1 [10, 20, 30, 40, 50, 60, 70, 80, 90]
/-- The image RAMP. -/
def ramp : State := image 5 5 1 (List.range 25)
/-- The row `a` of V-ARI. -/
def rowA : List Nat := [0, 1, 2, 3, 5, 7, 10, 11, 100, 101, 103, 127, 128, 200, 254, 255]
/-- The row `b` of V-ARI. -/
def rowB : List Nat := [0, 1, 2, 2, 2, 2, 3, 4, 27, 0, 255, 128, 128, 200, 2, 255]
/-- Both rows. -/
def rowsAB : State := images 1 16 1 rowA rowB
/-- Row `a` with a scalar. -/
def withScalar (v : BitVec 24) : State := { image 1 16 1 rowA with scalar := v }

/-- V-ARI, NOP: 40_common_execute.md R140. -/
theorem test_nop : after State.reset 0x00000000 0 = some (2, 0, 0, []) := by decide +kernel
/-- V-CONV-1. -/
theorem test_conv_mean_zero : after t9 0x10460000 9 = some (2, 0, 0, [13, 23, 18, 30, 50, 37, 27, 43, 31]) := by
  decide +kernel
/-- V-CONV-3. -/
theorem test_conv_gauss5_reflect :
    after ramp 0x188A0000 25 =
      some (2, 0, 0, [2, 3, 4, 5, 5, 5, 6, 7, 8, 9, 10, 11, 12, 13, 14, 15, 16, 17, 18, 19, 19, 19, 20, 21, 22]) := by
  decide +kernel
/-- V-MED. -/
theorem test_median_zero : after t9 0x20020000 9 = some (2, 0, 0, [0, 20, 0, 20, 50, 30, 0, 50, 0]) := by decide +kernel
/-- V-MED. -/
theorem test_median_replicate : after t9 0x24020000 9 = some (2, 0, 0, [20, 30, 30, 40, 50, 60, 70, 70, 80]) := by
  decide +kernel
/-- V-SOB. -/
theorem test_sobel_45 :
    after ramp 0x34004000 25 =
      some (2, 0, 0, [12, 9, 9, 9, 12, 27, 24, 24, 24, 27, 27, 24, 24, 24, 27, 27, 24, 24, 24, 27, 12, 9, 9, 9, 12]) := by
  decide +kernel
/-- V-SOB, on the vertical edge. -/
theorem test_sobel_edge :
    after (image 3 3 1 [10, 10, 20, 10, 10, 20, 10, 10, 20]) 0x3000A000 9 =
      some (2, 0, 0, [42, 58, 58, 40, 40, 40, 42, 58, 58]) := by decide +kernel
/-- V-ARI. -/
theorem test_add :
    after rowsAB 0x40000000 16 =
      some (2, 0, 0, [0, 2, 4, 5, 7, 9, 13, 15, 127, 101, 255, 255, 255, 255, 255, 255]) := by decide +kernel
theorem test_adds :
    after (withScalar 0xFFFF80#24) 0x40001000 16 =
      some (2, 0, 0, [0, 0, 2, 2, 4, 6, 10, 10, 100, 100, 102, 126, 128, 200, 254, 254]) := by decide +kernel
theorem test_sub :
    after rowsAB 0x50000000 16 = some (2, 0, 0, [0, 0, 0, 1, 3, 5, 7, 7, 73, 101, 0, 0, 0, 0, 252, 0]) := by
  decide +kernel
theorem test_subs :
    after (withScalar 0x000180#24) 0x50001000 16 =
      some (2, 0, 0, [0, 0, 0, 2, 4, 6, 8, 10, 98, 100, 102, 126, 126, 198, 252, 254]) := by decide +kernel
theorem test_mul :
    after rowsAB 0x60000000 16 =
      some (2, 0, 0, [0, 1, 4, 6, 10, 14, 30, 44, 255, 0, 255, 255, 255, 255, 255, 255]) := by decide +kernel
theorem test_muls :
    after (withScalar 0x000080#24) 0x60001000 16 =
      some (2, 0, 0, [0, 0, 1, 2, 2, 4, 5, 6, 50, 50, 52, 64, 64, 100, 127, 128]) := by decide +kernel
theorem test_div :
    after rowsAB 0x70000000 16 = some (2, 0, 0, [0, 1, 1, 2, 2, 4, 3, 3, 4, 0, 0, 1, 1, 1, 127, 1]) := by
  decide +kernel
theorem test_divs :
    after (withScalar 0x000180#24) 0x70001000 16 =
      some (2, 0, 0, [0, 1, 1, 2, 3, 5, 7, 7, 67, 67, 69, 85, 85, 133, 169, 170]) := by decide +kernel
/-- V-ARI: division by the scalar 0 writes 0 and does not fault. -/
theorem test_divs_zero : after (withScalar 0#24) 0x70001000 16 = some (2, 0, 0, List.replicate 16 0) := by
  decide +kernel
/-- V-GAMMA, eight of the sixteen samples. -/
theorem test_gamma :
    after { image 1 8 1 [0, 1, 16, 32, 127, 128, 200, 255] with gamma := 0x0080#16 } 0x80000000 8 =
      some (2, 0, 0, [0, 16, 64, 90, 180, 181, 226, 255]) := by decide +kernel
/-- V-GRAY: the two ties, and that no byte beyond the last output is written. -/
theorem test_gray_standard :
    after { image 1 2 3 [0, 0, 250, 0, 12, 4] with pmem := bytesFrom 0 [0, 0, 250, 0, 12, 4] ++ bytesFrom 0x1002 [77] }
      0x90000000 3 = some (2, 0, 0, [28, 8, 77]) := by decide +kernel
theorem test_gray_blue :
    after (image 1 2 3 [10, 20, 30, 200, 100, 50]) 0x90000C00 2 = some (2, 0, 0, [30, 50]) := by decide +kernel

/-! ### Faults: V-CONV-4, V-FLT, V-DEC -/

theorem test_illegal_word : after ramp 0x1C460000 0 = some (6, 7, 0x0080, []) := by decide +kernel
theorem test_conv_even_side_before_shape :
    after { ramp with src0 := ⟨0#24, 0#16, 5#16, 1#2⟩ } 0x10480000 0 = some (6, 2, 0x0004, []) := by decide +kernel
theorem test_median_negative_radius : after ramp 0x201E0000 0 = some (6, 1, 0x0002, []) := by decide +kernel
theorem test_sobel_no_angle : after ramp 0x30000000 0 = some (6, 5, 0x0020, []) := by decide +kernel
theorem test_gamma_zero : after { ramp with gamma := 0#16 } 0x80000000 0 = some (6, 4, 0x0010, []) := by decide +kernel
theorem test_gray_one_channel : after ramp 0x90000000 0 = some (6, 6, 0x0040, []) := by decide +kernel
theorem test_add_rows_differ :
    after { images 5 5 1 (List.range 25) (List.range 25) with src1 := ⟨0x100#24, 4#16, 5#16, 1#2⟩ } 0x40000000 0 =
      some (6, 3, 0x0008, []) := by decide +kernel
/-- One byte beyond the end of PMEM, and overlap by one byte. -/
theorem test_range_and_overlap :
    after { ramp with dstBase := 0xFFFFE8#24 } 0x10460000 0 = some (6, 10, 0x0400, []) ∧
    after { ramp with dstBase := 24#24 } 0x10460000 0 = some (6, 11, 0x0800, []) := by decide +kernel

/-! ### The host: V-HOST and program P-E -/

/-- The state after the turns, one step each. -/
def after? (s : State) (ts : List Turn) : Option State :=
  match Sys2Proof.core.run ts.length { s with turns := ts } with
  | .next t => some t
  | .fault _ => none
  | .refused _ => none

/-- The response to the last of the turns. -/
def response (s : State) (ts : List Turn) : Option Response := (after? s ts).map State.resp

theorem test_read_constants :
    response State.reset (scriptRd .id) = some (.okWord 0x57434531#32) ∧
    response State.reset (scriptRd .cap) = some (.okWord 0x00031803#32) ∧
    response State.reset (scriptRd .gamma) = some (.okWord 0x00000100#32) ∧
    response State.reset (scriptRd (.krom 371)) = some (.okWord 0xFFFFFFFE#32) ∧
    response State.reset (scriptRd (.kromDiv 9)) = some (.okWord 26452#32) := by decide +kernel
theorem test_write_is_masked :
    response State.reset (scriptWr .src0Base 0xFFFFFFFF#32 ++ scriptRd .src0Base) = some (.okWord 0x00FFFFFF#32) ∧
    response State.reset (scriptWr (.kram 1) 0x00018000#32 ++ scriptRd (.kram 1)) = some (.okWord 0x00008000#32) ∧
    response State.reset (scriptWr .ctrl 0x7FFFFFFF#32 ++ scriptRd .ctrl) = some (.okWord 3#32) := by decide +kernel
theorem test_refused_accesses :
    (after? State.reset [.regWrite 32 0x000 5#32, .regWrite 16 0x008 3#32, .regWrite 32 0x01C 1#32,
      .pixWrite 8 0x1000000 0#8]).map (fun t => (t.resp, t.esticky, t.statusWord, t.ctrlWord)) =
      some (.errWrite, 0x2000#14, 0#32, 0#32) := by decide +kernel
theorem test_esticky_write_one_to_clear :
    (after? { State.reset with esticky := 0x2A08#14 } (scriptWr .esticky 8#32)).map State.estickyWord =
      some 0x00002A00#32 := by decide +kernel
/-- P-E in small: `CMD`, an operand and a pixel are refused while the command runs; then the command completes. -/
theorem test_busy_gating :
    (after? ramp (scriptGo (.gray .standard) ++ scriptWr .src0Dim 0x00030003#32 ++ scriptGo .nop ++
      scriptRpix 0x1000 1)).map (fun t => (t.statusWord, t.cmd, t.src0.height, t.esticky)) =
      some (1#32, 0x90000000#32, 5#16, 0x2000#14) ∧
    response ramp (scriptGo .nop ++ scriptWait 0) = some (.okWord 2#32) ∧
    response ramp (scriptGo .nop ++ scriptWait 2) = some (.okWord 2#32) ∧
    response ramp (scriptGo .nop ++ scriptRd .status) = some (.okWord 1#32) := by decide +kernel
theorem test_soft_reset_mid_command :
    (after? ramp (scriptGo (.conv .zeroFill .ident false 1) ++ scriptWr .ctrl 0x80000003#32)).map
      (fun t => (t.statusWord, t.ctrlWord, t.src0, (Memory.value? t.pmem 24), (Memory.value? t.pmem 25))) =
      some (0#32, 0#32, ⟨0#24, 0#16, 0#16, 0#2⟩, some 24#8, none) := by decide +kernel

/-! ### Witnesses: the hypotheses of each statement can be met -/

/-- O1: at the ends of each field. -/
theorem witness_O1 :
    (Instr.conv .reflect .kram true 15).WellFormed ∧ (Instr.conv .zeroFill .ident false 0).WellFormed ∧
    (Instr.median .replicate (-8)).WellFormed ∧ (Instr.median .replicate 7).WellFormed ∧
    (Instr.sobel .reflect 15#4).WellFormed := by decide

/-- O2. -/
theorem witness_O2 : decode 0x1A3E0000#32 = .ok (.conv .reflect .kram true 15) := by decide +kernel

/-- O3: the engine's turn by the list, and by an empty list. -/
theorem witness_O3 :
    (∃ s : State, s.busy = true ∧ s.engineNext ∧ decode s.cmd = .error .reservedOpcode) ∧
    (∃ s : State, s.busy = true ∧ s.engineNext ∧ s.turns = [] ∧ decode s.cmd = .error .strayBit) :=
  ⟨⟨ramp.withFetchWord 32 0xA0000000, rfl, .inr ⟨[], rfl⟩, by decide +kernel⟩,
   ⟨ramp.launch 1#32, rfl, .inl rfl, rfl, by decide +kernel⟩⟩

/-- O4: a word that selects a row with free bits. -/
theorem witness_O4 : ∃ r ∈ opcodeTable, r.selects 0x90000800#32 = true := by decide +kernel

/-- O6. -/
theorem witness_O6 : ∃ (s : State) (i : Instr), s.busy = true ∧ s.engineNext ∧ decode s.cmd = .ok i :=
  ⟨ramp.withFetchWord 32 0x14460000, .conv .replicate .mean false 3, rfl, .inr ⟨[], rfl⟩, by decide +kernel⟩

/-- A state with the given turns next. -/
def facing (s : State) (ts : List Turn) : State := { s with turns := ts }

/-- O7: launch, refused launch, read. -/
theorem witness_O7 :
    (∃ s w rest, State.turns s = .regWrite 32 0x018 w :: rest ∧ s.busy = false) ∧
    (∃ s w rest, State.turns s = .regWrite 32 0x018 w :: rest ∧ s.busy = true) ∧
    (∃ s rest, State.turns s = .regRead 32 0x018 :: rest) :=
  ⟨⟨facing ramp (scriptGo .nop), _, _, rfl, rfl⟩, ⟨facing (ramp.launch 0#32) (scriptGo .nop), _, _, rfl, rfl⟩,
   ⟨facing ramp (scriptRd .cmd), _, rfl⟩⟩

/-- O10: a host turn that is accepted and changes a flag, and one that is refused. -/
theorem witness_O10 :
    (∃ s turn rest, State.busy s = true ∧ s.turns = turn :: rest ∧ turn ≠ .engine ∧ turn.resets = false ∧
      s.done = false ∧ s.err = false) ∧
    (∃ s a b rest, State.busy s = true ∧ s.turns = .pixWrite 8 a b :: rest) :=
  ⟨⟨facing (ramp.launch 0#32) (scriptWr .status 6#32), _, _, rfl, rfl, by decide, by decide, rfl, rfl⟩,
   ⟨facing (ramp.launch 0#32) (scriptWpix 0 [7#8]), _, _, _, rfl, rfl⟩⟩

/-- O11: each case of a refused access at its boundary, and the accepted access beside it. -/
theorem witness_O11 :
    RefusedRegRead 16 0x008 ∧ RefusedRegRead 32 0x00A ∧ RefusedRegRead 32 0x01C ∧ RefusedRegRead 32 0x1C4 ∧
    RefusedRegRead 32 0x7FC ∧ RefusedRegRead 32 0xDD0 ∧ RefusedRegRead 32 0xE50 ∧ RefusedRegRead 32 0x1000 ∧
    ¬ RefusedRegRead 32 0x018 ∧ ¬ RefusedRegRead 32 0x1C0 ∧ ¬ RefusedRegRead 32 0xDCC ∧ ¬ RefusedRegRead 32 0xE4C ∧
    RefusedRegWrite ramp 32 0x000 ∧ RefusedRegWrite ramp 32 0x010 ∧ RefusedRegWrite ramp 32 0x800 ∧
    ¬ RefusedRegWrite ramp 32 0x018 ∧ RefusedRegWrite (ramp.launch 0#32) 32 0x018 ∧
    ¬ RefusedRegWrite (ramp.launch 0#32) 32 0x014 ∧ ¬ RefusedRegWrite (ramp.launch 0#32) 32 0x008 ∧
    RefusedPixel ramp 8 0x1000000 ∧ ¬ RefusedPixel ramp 8 0xFFFFFF ∧ RefusedPixel ramp 32 0 ∧
    RefusedPixel (ramp.launch 0#32) 8 0 := by
  unfold RefusedRegRead RefusedRegWrite RefusedPixel MappedOffset ReadOnlyOffset
  repeat' apply And.intro
  all_goals decide +kernel

/-- O11, O19, O20: states that face each kind of access. -/
theorem witness_accesses :
    (∃ s w o rest, State.turns s = .regRead w o :: rest) ∧ (∃ s w o v rest, State.turns s = .regWrite w o v :: rest) ∧
    (∃ s a rest, State.busy s = false ∧ a < 2 ^ 24 ∧ s.turns = .pixRead 8 a :: rest) ∧
    (∃ s a b rest, State.busy s = false ∧ a < 2 ^ 24 ∧ s.turns = .pixWrite 8 a b :: rest) ∧
    (∃ (s : State) (i : Fin 20) (rest : List Turn), s.turns = .regRead 32 (Reg.kromDiv i).offset :: rest) :=
  ⟨⟨facing ramp (scriptRd .id), _, _, _, rfl⟩, ⟨facing ramp (scriptWr .id 1#32), _, _, _, _, rfl⟩,
   ⟨facing ramp (scriptRpix 0xFFFFFF 1), 0xFFFFFF, [], rfl, by decide, rfl⟩,
   ⟨facing ramp (scriptWpix 0xFFFFFF [1#8]), 0xFFFFFF, _, _, rfl, by decide, rfl⟩,
   ⟨facing ramp (scriptRd (.kromDiv 19)), 19, _, rfl⟩⟩

/-- O12: the last offset of each block of the map is a register; the word after the first block is none. -/
theorem witness_O12 :
    regAt 0x018 = some .cmd ∧ regAt 0x1C0 = some (.kram 48) ∧ regAt 0xDCC = some (.krom 371) ∧
    regAt 0xE4C = some (.kromDiv 19) ∧ regAt 0x01C = none ∧ regAt 0xE50 = none := by decide +kernel

/-- O13. -/
theorem witness_O13 : ∃ (s : State) (rest : List Turn) (r : Reg) (v mask : Word), s.busy = false ∧
    operandMask r = some mask ∧ s.turns = .regWrite 32 r.offset v :: .regRead 32 r.offset :: rest :=
  ⟨facing ramp (scriptWr (.kram 48) 0x18000#32 ++ scriptRd (.kram 48)), [], .kram 48, _, _, rfl, rfl, rfl⟩

/-- O14. -/
theorem witness_O14 : ∃ s v rest, State.turns s = .regWrite 32 0x00C v :: rest ∧ s.err = true :=
  ⟨facing { ramp with done := true, err := true } (scriptWr .status 4#32), _, _, rfl, rfl⟩

/-- O15, O58: a write of `ESTICKY` and one of `CTRL` without `SRST`, to an idle and to a running engine. -/
theorem witness_O15_O58 :
    (∃ s v rest, State.turns s = .regWrite 32 0x014 v :: rest ∧ s.busy = false) ∧
    (∃ s v rest, State.turns s = .regWrite 32 0x014 v :: rest ∧ s.busy = true) ∧
    (∃ s v rest, State.turns s = .regWrite 32 0x008 v :: rest ∧ v.getLsbD 31 = false ∧ s.busy = false) ∧
    (∃ s v rest, State.turns s = .regWrite 32 0x008 v :: rest ∧ v.getLsbD 31 = false ∧ s.busy = true) :=
  ⟨⟨facing ramp (scriptWr .esticky 0xFFFFFFFF#32), _, _, rfl, rfl⟩,
   ⟨facing (ramp.launch 0#32) (scriptWr .esticky 0xFFFFFFFF#32), _, _, rfl, rfl⟩,
   ⟨facing ramp (scriptWr .ctrl 0x7FFFFFFE#32), _, _, rfl, by decide, rfl⟩,
   ⟨facing (ramp.launch 0#32) (scriptWr .ctrl 1#32), _, _, rfl, by decide, rfl⟩⟩

/-- O15: a bit cleared by the host; a bit set by a completion; bit 13 set by a refused access. -/
theorem witness_O15 :
    (∃ s t, step s = .next t ∧ s.esticky.getLsbD 11 = true ∧ t.esticky.getLsbD 11 = false) ∧
    (∃ s t, step s = .next t ∧ s.esticky.getLsbD 11 = false ∧ t.esticky.getLsbD 11 = true) ∧
    (∃ s t, step s = .next t ∧ s.esticky.getLsbD 13 = false ∧ t.esticky.getLsbD 13 = true) :=
  ⟨⟨facing { ramp with esticky := 0x0800#14 } (scriptWr .esticky 0x0800#32), _, rfl, by decide, by decide +kernel⟩,
   ⟨{ ramp with dstBase := 24#24 }.withFetchWord 32 0x10460000, _, rfl, by decide +kernel, by decide +kernel⟩,
   ⟨facing ramp [.pixRead 8 0x1000000], _, rfl, by decide +kernel, by decide +kernel⟩⟩

/-- O16, O17, O18: both resets, of an idle engine, of a running command and of one that would fault. -/
theorem witness_resets :
    (∃ s turn rest, State.turns s = turn :: rest ∧ turn.resets = true ∧ s.busy = false) ∧
    (∃ s turn rest i, State.turns s = turn :: rest ∧ turn.resets = true ∧ s.busy = true ∧ decode s.cmd = .ok i ∧
      UnaryReady s) ∧
    (∃ s turn rest e, State.turns s = turn :: rest ∧ turn.resets = true ∧ s.busy = true ∧ decode s.cmd = .error e) ∧
    (∃ v : Word, v.getLsbD 31 = true) :=
  ⟨⟨facing ramp [.hardReset], _, _, rfl, rfl, rfl⟩,
   ⟨facing (ramp.launch 0x14460000#32) (scriptWr .ctrl 0x80000000#32), _, _, .conv .replicate .mean false 3, rfl,
     by decide +kernel, rfl, by decide +kernel, (unaryReady_iff _).2 (by decide +kernel)⟩,
   ⟨facing (ramp.launch 1#32) [.hardReset], _, _, .strayBit, rfl, rfl, rfl, by decide +kernel⟩,
   ⟨0x80000000#32, by decide⟩⟩

/-- The fault of a command, from its result. -/
theorem faults_of_result {i : Instr} {s : State} {c : Cause} (h : commandResult i s = .fault c) : Faults i s c :=
  ⟨_, exec_eq i s, by rw [h]; exact State.complete_fault s c⟩

/-- O18, O23: a command that faults. -/
theorem witness_faults : Faults (.sobel .zeroFill 0#4) ramp .emptyAngleSet := faults_of_result rfl

/-- O21, O22, O24: an exec to a next state from a state with `ERR` = 0. -/
theorem witness_exec : ramp.err = false ∧ ∃ t, exec .nop ramp = .next t := ⟨rfl, _, rfl⟩

/-- O25: the same operands under other flags. -/
theorem witness_O25 : ∃ s s' t t' : State,
    s' = { s with
      ieDone := s'.ieDone, ieErr := s'.ieErr, busy := s'.busy, done := s'.done, err := s'.err, cause := s'.cause,
      esticky := s'.esticky, cmd := s'.cmd, turns := s'.turns, resp := s'.resp, fresh := s'.fresh } ∧
    s'.esticky ≠ s.esticky ∧ exec .add s = .next t ∧ exec .add s' = .next t' :=
  ⟨rowsAB, { rowsAB with ieDone := true, busy := true, esticky := 8#14, cmd := 0x40000000#32 }, _, _, rfl, by decide,
    rfl, rfl⟩

/-- O26: one source byte, and a byte outside the sources that differs. -/
theorem witness_O26 : ∃ s s' t t' : State, SameInputs .adds s s' ∧ exec .adds s = .next t ∧ exec .adds s' = .next t' ∧
    s.pmem ≠ s'.pmem ∧ (commandResult .adds s).dest? ≠ none := by
  refine ⟨{ image 1 1 1 [5] with pmem := [(0, 5#8), (9, 1#8)] }, { image 1 1 1 [5] with pmem := [(0, 5#8), (9, 2#8)] },
    _, _, ?_, rfl, rfl, by decide, by decide +kernel⟩
  refine ⟨fun _ => ⟨rfl, rfl⟩, by decide, fun _ => rfl, by decide, ?_, ?_, by decide⟩
  · intro _ _ _ h; cases h
  · intro _ a _ h
    have hb : a < 1 := by simpa [image, byteCount] using h
    have : a = 0 := by omega
    subst this
    rfl

/-- O26, for the kernel of KRAM: the two kernel RAMs differ beyond the `k*k` entries that side 1 reads. -/
theorem witness_O26_kram : ∃ s s' : State, SameInputs (.conv .replicate .kram false 1) s s' ∧ s.kram ≠ s'.kram := by
  refine ⟨ramp, { ramp with kram := ramp.kram.set 1 7#16 }, ?_, by decide +kernel⟩
  refine ⟨fun _ => ⟨rfl, rfl⟩, by decide, by decide, by decide, ?_, fun _ _ _ _ => rfl, by decide⟩
  intro _ _ k h
  cases h
  refine ⟨rfl, fun j hj => ?_⟩
  obtain ⟨j, hj'⟩ := j
  have : j = 0 := by simpa using hj
  subst this
  rfl

/-- O28 to O34, O53: operands in order. -/
theorem witness_unary : UnaryReady ramp := (unaryReady_iff _).2 (by decide +kernel)
theorem witness_binary : BinaryReady rowsAB := (binaryReady_iff _).2 (by decide +kernel)
theorem witness_gray : GrayReady (image 1 2 3 [10, 20, 30, 200, 100, 50]) := (grayReady_iff _).2 (by decide +kernel)
/-- The destination ends at the last byte of PMEM, beside the source. -/
theorem witness_unary_end : UnaryReady { ramp with src0 := ⟨0xFFFFCE#24, 5#16, 5#16, 1#2⟩, dstBase := 0xFFFFE7#24 } :=
  (unaryReady_iff _).2 (by decide +kernel)
theorem witness_params :
    ParamsPass (.conv .reflect .gauss true 7) ramp ∧ ParamsPass (.conv .zeroFill .sobel45 false 3) ramp ∧
    ParamsPass (.conv .replicate .kram false 1) ramp ∧ ParamsPass (.median .reflect 0) ramp ∧
    ParamsPass (.median .reflect 3) ramp ∧ ParamsPass (.sobel .reflect 8#4) ramp ∧ ParamsPass .gamma ramp := by
  unfold ParamsPass
  decide +kernel
theorem witness_O33 : 0 < ramp.gamma.toInt ∧ UnaryReady ramp := ⟨by decide, witness_unary⟩

/-- O35: each clause's operands, at the ends of their ranges, and the faults they give. -/
theorem witness_O35 :
    Faults (.conv .reflect .ident false 0) ramp .kernelSizeMismatch ∧
    Faults (.conv .reflect .kram false 8) ramp .kernelSizeMismatch ∧
    Faults (.conv .reflect .ident false 9) ramp .unsupportedSize ∧
    Faults (.conv .reflect .ident false 15) ramp .unsupportedSize ∧
    Faults (.conv .reflect .sobel0 false 1) ramp .unsupportedSize ∧
    Faults (.conv .reflect .sobel135 true 7) ramp .unsupportedSize ∧
    Faults (.conv .reflect .kram false 7) { ramp with kdiv := 0#24 } .invalidDivisor :=
  ⟨faults_of_result rfl, faults_of_result rfl, faults_of_result rfl, faults_of_result rfl, faults_of_result rfl,
    faults_of_result rfl, faults_of_result rfl⟩

/-- O36 to O38: the first operand on the faulting side of each bound. -/
theorem witness_O36 :
    Faults (.median .reflect (-1)) ramp .invalidRadius ∧ Faults (.median .reflect (-8)) ramp .invalidRadius ∧
    Faults (.median .reflect 4) ramp .unsupportedSize ∧ Faults (.median .reflect 7) ramp .unsupportedSize :=
  ⟨faults_of_result rfl, faults_of_result rfl, faults_of_result rfl, faults_of_result rfl⟩
theorem witness_O38 :
    Faults .gamma { ramp with gamma := 0#16 } .invalidGamma ∧
    Faults .gamma { ramp with gamma := 0x8000#16 } .invalidGamma ∧
    Faults .gamma { ramp with gamma := 0xFFFF#16 } .invalidGamma ∧
    (commandResult .gamma { ramp with gamma := 1#16 }).dest? ≠ none ∧
    (commandResult .gamma { ramp with gamma := 32767#16 }).dest? ≠ none :=
  ⟨faults_of_result rfl, faults_of_result rfl, faults_of_result rfl, by decide +kernel, by decide +kernel⟩

/-- O41 to O50: the ends of the ranges of the clauses about numbers; expected values from the rules. -/
theorem witness_numbers :
    clip (-1) = 0 ∧ clip 0 = 0 ∧ clip 255 = 255 ∧ clip 256 = 255 ∧
    rneDiv 1 (-2) = 0 ∧ rneDiv 3 (-2) = -2 ∧
    mirror (-1) 1 = 0 ∧ mirror (-3) 3 = 2 ∧ mirror 3 3 = 2 ∧ mirror 5 3 = 0 ∧ mirror 2 3 = 2 ∧
    ([7] : List Nat) ≠ [] ∧ median [7] = 7 ∧ median [4, 1, 3, 2] = 2 ∧
    gammaMap 255 1 = 255 ∧ gammaMap 0 1 = 0 ∧ gammaMap 255 256 = 255 := by decide +kernel

/-- O46: a coordinate beyond a corner under each policy (41_window_engine.md R153 to R155, on T9). -/
theorem witness_O46 :
    sample t9.pmem t9.source0 .zeroFill (-2) 3 0 = 0 ∧ sample t9.pmem t9.source0 .replicate (-2) 3 0 = 30 ∧
    sample t9.pmem t9.source0 .reflect (-2) 4 0 = 50 := by decide +kernel

/-- O59: the last entry of the largest kernel, read signed (10_state.md R40), with and without `NEG`. -/
theorem witness_O59 :
    numerator { ramp with kram := ramp.kram.set 48 0x8000#16 } .kram false 7 6 6 = -32768 ∧
    numerator { ramp with kram := ramp.kram.set 48 0x8000#16 } .kram true 7 6 6 = 32768 := by decide +kernel

/-- O39: each fault's hypotheses. -/
theorem witness_O39 :
    (¬ ValidShape State.reset.src0 ∧ ParamsPass .adds State.reset) ∧
    (ValidShape ramp.src0 ∧ ramp.src0.channels.toNat ≠ 3) ∧
    (ValidShape ramp.src0 ∧ ¬ ValidShape ramp.src1) ∧
    (∃ s : State, ValidShape s.src0 ∧ ValidShape s.src1 ∧ ¬ SameShape s) := by
  refine ⟨⟨?_, trivial⟩, ?_, ?_, { ramp with src1 := ⟨0x100#24, 5#16, 4#16, 1#2⟩ }, ?_⟩ <;>
    unfold ValidShape <;> first | decide +kernel | (unfold SameShape; decide +kernel)

/-- O40: parameters and shapes pass, and each of its five cases. -/
theorem witness_O40 :
    (ParamsPass .adds ramp ∧ ShapesPass .adds ramp) ∧ (ParamsPass .add rowsAB ∧ ShapesPass .add rowsAB) ∧
    (∃ s : State, ShapesPass .adds s ∧ ¬ Fits s.src0.base.toNat (byteCount s.src0)) ∧
    (∃ s : State, ShapesPass .add s ∧ Fits s.src0.base.toNat (byteCount s.src0) ∧
      ¬ Fits s.src1.base.toNat (byteCount s.src0)) ∧
    (∃ s : State, ShapesPass .adds s ∧ Fits s.src0.base.toNat (byteCount s.src0) ∧
      ¬ Fits (destRange .adds s).1 (destRange .adds s).2) ∧
    (∃ s : State, ShapesPass .adds s ∧ Fits s.src0.base.toNat (byteCount s.src0) ∧
      Fits (destRange .adds s).1 (destRange .adds s).2 ∧
      Overlap (destRange .adds s).1 (destRange .adds s).2 s.src0.base.toNat (byteCount s.src0)) := by
  have ha : ∀ s : State, ValidShape s.src0 → ShapesPass .adds s := fun s h =>
    ⟨h, fun e => absurd e (by decide), fun m e => by cases e⟩
  have hb : ∀ s : State, ValidShape s.src0 → SameShape s → ShapesPass .add s := fun s h h' =>
    ⟨h, fun _ => ⟨h'.valid.2 h, h'⟩, fun m e => by cases e⟩
  refine ⟨⟨trivial, ha _ ?_⟩, ⟨trivial, hb _ ?_ ⟨rfl, rfl, rfl⟩⟩,
    ⟨{ ramp with src0 := ⟨0xFFFFE8#24, 5#16, 5#16, 1#2⟩ }, ha _ ?_, ?_⟩,
    ⟨{ rowsAB with src1 := ⟨0xFFFFF1#24, 1#16, 16#16, 1#2⟩ }, hb _ ?_ ⟨rfl, rfl, rfl⟩, ?_, ?_⟩,
    ⟨{ ramp with dstBase := 0xFFFFE8#24 }, ha _ ?_, ?_, ?_⟩,
    ⟨{ ramp with dstBase := 24#24 }, ha _ ?_, ?_, ?_, ⟨24, ?_⟩⟩⟩ <;>
    first
    | (unfold ValidShape; decide +kernel)
    | (unfold Fits; decide +kernel)
    | decide +kernel

/-- O46, O51, O52, O54, O55: a buffer with both sides, and a source of constant channels. -/
theorem witness_constant : ∃ (s : State) (v : Nat → Nat), UnaryReady s ∧
    (∀ y x c, y < s.src0.height.toNat → x < s.src0.width.toNat → c < s.src0.channels.toNat → s.pix0 y x c = v c) ∧
    1 ≤ s.source0.h ∧ 1 ≤ s.source0.w := by
  refine ⟨image 1 1 3 [9, 100, 200], fun c => ([9, 100, 200] : List Nat).getD c 0, (unaryReady_iff _).2 (by decide +kernel),
    ?_, by decide, by decide⟩
  intro y x c hy hx hc
  have hy : y < 1 := hy
  have hx : x < 1 := hx
  have hc : c < 3 := hc
  obtain rfl : y = 0 := by omega
  obtain rfl : x = 0 := by omega
  interval_cases c <;> rfl

/-- O57: a state that meets the invariant, with a command running and a fault behind it in `ESTICKY`. -/
theorem witness_O57 : ({ ramp.launch 0x14460000#32 with esticky := 0x0800#14 } : State).Inv := by
  constructor <;> decide +kernel

end Sys2Proof.Tests
end

section
/-! SUPPORT. What a command reads (00_scope.md R9, 10_state.md R31): two states that agree on it give results that agree,
and results that agree leave the same cause and the same bytes in the destination range. -/

namespace Sys2Proof.Machine

/-! ### The bytes of a buffer -/

/-- The two memories read the same at every byte of the buffer's range (20_memory.md R61). -/
def Memory.AgreeOn (b : Buffer) (m m' : Memory) : Prop :=
  ∀ a, b.base ≤ a → a < b.base + b.size → Memory.read m a = Memory.read m' a

/-- A pair of digits below `n` and `m` is a number below `n * m`. -/
theorem mul_add_lt_mul {a n r m : Nat} (ha : a < n) (hr : r < m) : a * m + r < n * m :=
  calc a * m + r < (a + 1) * m := by rw [Nat.add_one_mul]; omega
    _ ≤ n * m := Nat.mul_le_mul_right m ha

/-- An element of a buffer stands inside the buffer's range (20_memory.md R62). -/
theorem Buffer.addr_mem_range {b : Buffer} {y x c : Nat} (hy : y < b.h) (hx : x < b.w) (hc : c < b.c) :
    b.base ≤ b.addr y x c ∧ b.addr y x c < b.base + b.size := by
  have hlt : (y * b.w + x) * b.c + c < b.size := mul_add_lt_mul (mul_add_lt_mul hy hx) hc
  unfold Buffer.addr
  omega

theorem Memory.AgreeOn.pix_eq {b : Buffer} {m m' : Memory} (h : Memory.AgreeOn b m m') {y x c : Nat}
    (hy : y < b.h) (hx : x < b.w) (hc : c < b.c) : pix m b y x c = pix m' b y x c := by
  obtain ⟨hlo, hhi⟩ := Buffer.addr_mem_range hy hx hc
  exact congrArg BitVec.toNat (h _ hlo hhi)

/-! ### Samples and windows read the source alone -/

/-- Replicate reads inside the image (41_window_engine.md R154). -/
theorem replicateIndex_lt (t : Int) {n : Nat} (hn : 0 < n) : replicateIndex t n < n := by
  unfold replicateIndex clamp
  split
  · omega
  · split <;> omega

/-- Reflect reads inside the image (41_window_engine.md R155). -/
theorem mirror_lt (t : Int) {n : Nat} (hn : 0 < n) : mirror t n < n := by
  have hlo : 0 ≤ t % (2 * (n : Int)) := Int.emod_nonneg t (by omega)
  have hhi : t % (2 * (n : Int)) < 2 * (n : Int) := Int.emod_lt_of_pos t (by omega)
  unfold mirror
  split <;> omega

theorem Buffer.inside_iff (b : Buffer) (yy xx : Int) :
    b.inside yy xx = true ↔ 0 ≤ yy ∧ yy < b.h ∧ 0 ≤ xx ∧ xx < b.w := by
  simp [Buffer.inside, and_assoc]

/-- A sample at any coordinates reads inside the source, if the source has a pixel (41_window_engine.md R152). -/
theorem Memory.AgreeOn.sample_eq {b : Buffer} {m m' : Memory} (h : Memory.AgreeOn b m m') (bp : BoundaryPolicy)
    (yy xx : Int) {c : Nat} (hh : 0 < b.h) (hw : 0 < b.w) (hc : c < b.c) :
    sample m b bp yy xx c = sample m' b bp yy xx c := by
  cases bp with
  | zeroFill =>
    unfold sample
    by_cases hin : b.inside yy xx = true
    · obtain ⟨hy0, hy, hx0, hx⟩ := (b.inside_iff yy xx).1 hin
      simp only [hin, if_true]
      exact h.pix_eq (by omega) (by omega) hc
    · simp only [hin, Bool.false_eq_true, if_false]
  | replicate => exact h.pix_eq (replicateIndex_lt yy hh) (replicateIndex_lt xx hw) hc
  | reflect => exact h.pix_eq (mirror_lt yy hh) (mirror_lt xx hw) hc

/-- The window at an element of the source reads the source alone (41_window_engine.md R151). -/
theorem Memory.AgreeOn.win_eq {b : Buffer} {m m' : Memory} (h : Memory.AgreeOn b m m') (bp : BoundaryPolicy) (r : Nat)
    {y x c : Nat} (hy : y < b.h) (hx : x < b.w) (hc : c < b.c) :
    win m b bp r y x c = win m' b bp r y x c := by
  funext i j
  exact h.sample_eq bp _ _ (by omega) (by omega) hc

/-- A weighted sum reads the `k*k` numerators of its kernel alone (42_linear_filter.md R172). -/
theorem weightedSum_congr {k : Nat} {n n' : Nat → Nat → Int} (w : Nat → Nat → Nat)
    (h : ∀ i j, i < k → j < k → n i j = n' i j) : weightedSum k n w = weightedSum k n' w := by
  unfold weightedSum
  refine congrArg List.sum (List.map_congr_left fun i hi => ?_)
  refine congrArg List.sum (List.map_congr_left fun j hj => ?_)
  rw [h i j (List.mem_range.1 hi) (List.mem_range.1 hj)]

/-! ### What the two states agree on, by kind of command -/

/-- The states agree on what every command but NOP reads: the descriptor and the bytes of source 0, and `DST_BASE`. -/
structure SameUnaryInputs (s s' : State) : Prop where
  src0 : s.src0 = s'.src0
  dstBase : s.dstBase = s'.dstBase
  bytes0 : Memory.AgreeOn s.source0 s.pmem s'.pmem

/-- The states agree on what a command with two sources reads (46_arith.md R251). -/
structure SameBinaryInputs (s s' : State) : Prop extends SameUnaryInputs s s' where
  src1 : s.src1 = s'.src1
  bytes1 : Memory.AgreeOn s.source1 s.pmem s'.pmem

/-- The states agree on what CONV reads of the host's kernel, if it reads it: `KDIV` and the first `k*k` entries of KRAM
(42_linear_filter.md R174). -/
def SameKernel (ksel : KernelSel) (k : Nat) (s s' : State) : Prop :=
  ksel = .kram → s.kdivValue = s'.kdivValue ∧ ∀ j, j < k * k → s.kramValue j = s'.kramValue j

theorem kramValue_congr {s s' : State} {j : Nat} (h : ∀ hj : j < 49, s.kram[j] = s'.kram[j]) :
    s.kramValue j = s'.kramValue j := by
  unfold State.kramValue
  by_cases hj : j < 49
  · rw [Vector.getElem?_eq_getElem hj, Vector.getElem?_eq_getElem hj, h hj]
  · rw [Vector.getElem?_eq_none (by omega), Vector.getElem?_eq_none (by omega)]

section
variable {i : Instr} {s s' : State}

theorem SameInputs.unary (h : SameInputs i s s') (hi : i ≠ .nop) : SameUnaryInputs s s' := by
  obtain ⟨hregs, -, -, -, -, hbytes, -⟩ := h
  exact ⟨(hregs hi).1, (hregs hi).2, hbytes hi⟩

theorem SameInputs.binary (h : SameInputs i s s') (hi : readsSource1 i = true) : SameBinaryInputs s s' := by
  have hnop : i ≠ .nop := by rintro rfl; exact absurd hi (by decide)
  have hunary := h.unary hnop
  obtain ⟨-, hsrc1, -, -, -, -, hbytes⟩ := h
  exact ⟨hunary, hsrc1 hi, hbytes hi⟩

theorem SameInputs.scalarValue (h : SameInputs i s s') (hi : readsScalar i = true) :
    s.scalarValue = s'.scalarValue := by
  obtain ⟨-, -, hscalar, -⟩ := h
  exact congrArg BitVec.toInt (hscalar hi)

theorem SameInputs.gammaValue (h : SameInputs .gamma s s') : s.gammaValue = s'.gammaValue := by
  obtain ⟨-, -, -, hgamma, -⟩ := h
  exact congrArg BitVec.toInt (hgamma rfl)

theorem SameInputs.kernel {bp : BoundaryPolicy} {ksel : KernelSel} {neg : Bool} {k : Nat}
    (h : SameInputs (.conv bp ksel neg k) s s') : SameKernel ksel k s s' := by
  rintro rfl
  obtain ⟨-, -, -, -, hkernel, -⟩ := h
  obtain ⟨hkdiv, hkram⟩ := hkernel bp neg k rfl
  exact ⟨congrArg BitVec.toNat hkdiv, fun j hjk => kramValue_congr fun hj => hkram ⟨j, hj⟩ hjk⟩

end

/-! ### Buffers and checks follow the descriptors -/

section
variable {s s' : State}

theorem SameUnaryInputs.source0 (h : SameUnaryInputs s s') : s.source0 = s'.source0 :=
  congrArg SourceRegs.buffer h.src0

theorem SameBinaryInputs.source1 (h : SameBinaryInputs s s') : s.source1 = s'.source1 :=
  congrArg SourceRegs.buffer h.src1

/-- The states see the same pixels of source 0. -/
theorem SameUnaryInputs.pix0 (h : SameUnaryInputs s s') {y x c : Nat} (hy : y < s.source0.h) (hx : x < s.source0.w)
    (hc : c < s.source0.c) : pix s.pmem s.source0 y x c = pix s'.pmem s'.source0 y x c := by
  rw [h.bytes0.pix_eq hy hx hc, h.source0]

/-- The states see the same windows of source 0. -/
theorem SameUnaryInputs.win (h : SameUnaryInputs s s') (bp : BoundaryPolicy) (r : Nat) {y x c : Nat}
    (hy : y < s.source0.h) (hx : x < s.source0.w) (hc : c < s.source0.c) :
    win s.pmem s.source0 bp r y x c = win s'.pmem s'.source0 bp r y x c := by
  rw [h.bytes0.win_eq bp r hy hx hc, h.source0]

/-- The states see the same pixels of source 1. -/
theorem SameBinaryInputs.pix1 (h : SameBinaryInputs s s') {y x c : Nat} (hy : y < s.source1.h) (hx : x < s.source1.w)
    (hc : c < s.source1.c) : pix s.pmem s.source1 y x c = pix s'.pmem s'.source1 y x c := by
  rw [h.bytes1.pix_eq hy hx hc, h.source1]

theorem SameUnaryInputs.dest (h : SameUnaryInputs s s') : s.dest = s'.dest := by
  simp only [State.dest, h.source0, h.dstBase]

theorem SameUnaryInputs.destGray (h : SameUnaryInputs s s') : s.destGray = s'.destGray := by
  simp only [State.destGray, h.source0, h.dstBase]

theorem SameUnaryInputs.unaryChecks (h : SameUnaryInputs s s') : s.unaryChecks = s'.unaryChecks := by
  simp only [State.unaryChecks, h.source0, h.dest]

theorem SameBinaryInputs.binaryChecks (h : SameBinaryInputs s s') : s.binaryChecks = s'.binaryChecks := by
  simp only [State.binaryChecks, h.source0, h.source1, h.dest]

theorem SameUnaryInputs.grayChecks (h : SameUnaryInputs s s') : s.grayChecks = s'.grayChecks := by
  simp only [State.grayChecks, h.source0, h.destGray]

end

/-! ### Results that agree -/

/-- The results are the same fault, or no output both, or the same value at every element of the same destination. -/
inductive CommandResult.Agrees : CommandResult → CommandResult → Prop where
  | fault (c : Cause) : Agrees (.fault c) (.fault c)
  | noOutput : Agrees .noOutput .noOutput
  | output (d : Buffer) {out out' : Nat → Nat → Nat → Nat}
      (h : ∀ y x c, y < d.h → x < d.w → c < d.c → out y x c = out' y x c) : Agrees (.output d out) (.output d out')

/-- Behind the same checks, outputs to the same destination need agree only where the checks pass. -/
theorem checked_agrees {cs cs' : List (Bool × Cause)} {d d' : Buffer} {out out' : Nat → Nat → Nat → Nat}
    (hcs : cs = cs') (hd : d = d')
    (h : (∀ p ∈ cs, p.1 = false) → ∀ y x c, y < d.h → x < d.w → c < d.c → out y x c = out' y x c) :
    (checked cs (.output d out)).Agrees (checked cs' (.output d' out')) := by
  subst hcs hd
  unfold checked
  cases hf : firstFailure cs with
  | some c => exact .fault c
  | none => exact .output d (h (firstFailure_eq_none.1 hf))

theorem outputByte_congr {d : Buffer} {out out' : Nat → Nat → Nat → Nat}
    (h : ∀ y x c, y < d.h → x < d.w → c < d.c → out y x c = out' y x c) {i : Nat} (hi : i < d.size) :
    outputByte d out i = outputByte d out' i := by
  have hsize : 0 < d.h * d.w * d.c := by unfold Buffer.size at hi; omega
  have hc : 0 < d.c := Nat.pos_of_mul_pos_left hsize
  have hw : 0 < d.w := Nat.pos_of_mul_pos_left (Nat.pos_of_mul_pos_right hsize)
  have hy : i / d.c / d.w < d.h := (Nat.div_lt_iff_lt_mul hw).2 ((Nat.div_lt_iff_lt_mul hc).2 hi)
  exact congrArg (BitVec.ofNat 8) (h _ _ _ hy (Nat.mod_lt _ hw) (Nat.mod_lt _ hc))

theorem CommandResult.Agrees.finish_cause {r r' : CommandResult} (h : r.Agrees r') (s s' : State) :
    (s'.finish r').cause = (s.finish r).cause := by
  cases h <;> rfl

/-- Whatever the memories held before, outputs that agree leave the same byte at every address of the destination. -/
theorem CommandResult.Agrees.finish_read {d : Buffer} {out : Nat → Nat → Nat → Nat} {r' : CommandResult}
    (h : (CommandResult.output d out).Agrees r') (s s' : State) {a : Nat} (hlo : d.base ≤ a)
    (hhi : a < d.base + d.size) :
    Memory.read (s'.finish r').pmem a = Memory.read (s.finish (.output d out)).pmem a := by
  cases h with
  | output _ hout =>
    simp only [State.finish, State.complete_pmem, Memory.read_store, hlo, hhi, and_self, if_true]
    exact (outputByte_congr hout (by omega)).symm

/-! ### Commands of the same inputs come to results that agree -/

section
variable {s s' : State}

/-- The shape of every command that reads source 0 alone and writes a buffer of its shape. -/
theorem unary_agrees (h : SameUnaryInputs s s') {params params' : List (Bool × Cause)} (hp : params = params')
    {out out' : Nat → Nat → Nat → Nat}
    (hout : ∀ y x c, y < s.source0.h → x < s.source0.w → c < s.source0.c → out y x c = out' y x c) :
    (checked (params ++ s.unaryChecks) (.output s.dest out)).Agrees
      (checked (params' ++ s'.unaryChecks) (.output s'.dest out')) :=
  checked_agrees (by rw [hp, h.unaryChecks]) h.dest fun _ => hout

theorem elementwise1_agrees (h : SameUnaryInputs s s') {params params' : List (Bool × Cause)}
    (hp : params = params') {f f' : Nat → Nat} (hf : f = f') :
    (elementwise1 s params f).Agrees (elementwise1 s' params' f') := by
  subst hf
  refine unary_agrees h hp fun y x c hy hx hc => ?_
  rw [h.pix0 hy hx hc]

/-- Past the checks source 1 has the shape of source 0, so that one bound on `(y, x, c)` serves both sources. -/
theorem elementwise2_agrees (h : SameBinaryInputs s s') (f : Nat → Nat → Nat) :
    (elementwise2 s f).Agrees (elementwise2 s' f) := by
  refine checked_agrees h.binaryChecks h.dest fun hpass y x c hy hx hc => ?_
  obtain ⟨-, hshape, -⟩ := (binaryReady_iff s).2 hpass
  obtain ⟨hheight, hwidth, hchannels⟩ := hshape
  have hy1 : y < s.source1.h := hy.trans_eq (congrArg BitVec.toNat hheight.symm)
  have hx1 : x < s.source1.w := hx.trans_eq (congrArg BitVec.toNat hwidth.symm)
  have hc1 : c < s.source1.c := hc.trans_eq (congrArg BitVec.toNat hchannels.symm)
  rw [h.pix0 hy hx hc, h.pix1 hy1 hx1 hc1]

/-- GRAY reads channels 0 to 2, which the source has past the checks (47_gray.md R283). -/
theorem grayResult_agrees (h : SameUnaryInputs s s') (mode : GrayMode) :
    (grayResult mode s).Agrees (grayResult mode s') := by
  refine checked_agrees h.grayChecks h.destGray fun hpass y x c hy hx _ => ?_
  obtain ⟨-, -, hthree, -⟩ := (grayReady_iff s).2 hpass
  have hpix : ∀ k, k < 3 → pix s.pmem s.source0 y x k = pix s'.pmem s'.source0 y x k := fun k hk =>
    h.pix0 hy hx (hk.trans_eq hthree.symm)
  rw [hpix 0 (by decide), hpix 1 (by decide), hpix 2 (by decide)]

theorem medianResult_agrees (h : SameUnaryInputs s s') (bp : BoundaryPolicy) (radius : Int) :
    (medianResult bp radius s).Agrees (medianResult bp radius s') := by
  refine unary_agrees h rfl fun y x c hy hx hc => ?_
  rw [medianOut, medianOut, h.win bp _ hy hx hc]

theorem sobelResult_agrees (h : SameUnaryInputs s s') (bp : BoundaryPolicy) (angles : BitVec 4) :
    (sobelResult bp angles s).Agrees (sobelResult bp angles s') := by
  refine unary_agrees h rfl fun y x c hy hx hc => ?_
  simp only [sobelOut, sobelSquares, sobelResponse, h.win bp _ hy hx hc]

theorem SameKernel.convChecks {ksel : KernelSel} {k : Nat} (h : SameKernel ksel k s s') :
    convChecks s ksel k = convChecks s' ksel k := by
  by_cases hk : ksel = .kram
  · simp only [Machine.convChecks, (h hk).1]
  · simp [Machine.convChecks, hk]

theorem SameKernel.divisor {ksel : KernelSel} {k : Nat} (h : SameKernel ksel k s s') :
    divisor s ksel k = divisor s' ksel k := by
  by_cases hk : ksel = .kram
  · simp only [Machine.divisor, (h hk).1]
  · simp only [Machine.divisor, hk, if_false]

theorem SameKernel.numerator {ksel : KernelSel} {k : Nat} (h : SameKernel ksel k s s') (neg : Bool) {i j : Nat}
    (hi : i < k) (hj : j < k) : numerator s ksel neg k i j = numerator s' ksel neg k i j := by
  have hbase : baseNumerator s ksel k i j = baseNumerator s' ksel k i j := by
    by_cases hk : ksel = .kram
    · simp only [baseNumerator, (h hk).2 _ (mul_add_lt_mul hi hj)]
    · simp only [baseNumerator, hk, if_false]
  simp only [Machine.numerator, hbase]

theorem convResult_agrees (h : SameUnaryInputs s s') {ksel : KernelSel} {k : Nat} (hk : SameKernel ksel k s s')
    (bp : BoundaryPolicy) (neg : Bool) : (convResult bp ksel neg k s).Agrees (convResult bp ksel neg k s') := by
  refine unary_agrees h hk.convChecks fun y x c hy hx hc => ?_
  have hacc : convAcc s bp ksel neg k y x c = convAcc s' bp ksel neg k y x c := by
    unfold convAcc
    rw [h.win bp _ hy hx hc]
    exact weightedSum_congr _ fun i j => hk.numerator neg
  rw [convOut, convOut, hacc, hk.divisor]

end

/-- A command's result depends on what the command reads (00_scope.md R9). -/
theorem commandResult_agrees {i : Instr} {s s' : State} (h : SameInputs i s s') :
    (commandResult i s).Agrees (commandResult i s') := by
  cases i with
  | nop => exact .noOutput
  | conv bp ksel neg k => exact convResult_agrees (h.unary (by simp)) h.kernel bp neg
  | median bp r => exact medianResult_agrees (h.unary (by simp)) bp r
  | sobel bp angles => exact sobelResult_agrees (h.unary (by simp)) bp angles
  | add => exact elementwise2_agrees (h.binary rfl) addPixel
  | sub => exact elementwise2_agrees (h.binary rfl) subPixel
  | mul => exact elementwise2_agrees (h.binary rfl) mulPixel
  | div => exact elementwise2_agrees (h.binary rfl) divPixel
  | adds => exact elementwise1_agrees (h.unary (by simp)) rfl (congrArg addsPixel (h.scalarValue rfl))
  | subs => exact elementwise1_agrees (h.unary (by simp)) rfl (congrArg subsPixel (h.scalarValue rfl))
  | muls => exact elementwise1_agrees (h.unary (by simp)) rfl (congrArg mulsPixel (h.scalarValue rfl))
  | divs => exact elementwise1_agrees (h.unary (by simp)) rfl (congrArg divsPixel (h.scalarValue rfl))
  | gamma =>
    exact elementwise1_agrees (h.unary (by simp)) (by rw [h.gammaValue]) (congrArg gammaPixel h.gammaValue)
  | gray mode => exact grayResult_agrees (h.unary (by simp)) mode

/-! ### What a command comes to, with its destination range -/

theorem checked_output_cases (cs : List (Bool × Cause)) (e : Buffer) (o : Nat → Nat → Nat → Nat) {range : Nat × Nat}
    (hrange : range = (e.base, e.size)) :
    (∃ c, checked cs (.output e o) = .fault c) ∨
    (∃ d out, checked cs (.output e o) = .output d out ∧ range = (d.base, d.size)) := by
  obtain ⟨c, -, hf⟩ | ⟨-, hr⟩ := checked_cases cs (.output e o)
  · exact .inl ⟨c, hf⟩
  · exact .inr ⟨e, o, hr, hrange⟩

/-- A command is NOP, or faults, or outputs to a buffer that is its destination range (60_exceptions.md R296). -/
theorem commandResult_cases (i : Instr) (s : State) :
    i = .nop ∨ (∃ c, commandResult i s = .fault c) ∨
    (∃ d out, commandResult i s = .output d out ∧ destRange i s = (d.base, d.size)) := by
  cases i with
  | nop => exact .inl rfl
  | gray mode => exact .inr (checked_output_cases _ _ _ (by simp [destRange]))
  | _ => exact .inr (checked_output_cases _ _ _ rfl)

/-- Settles O26: agreeing inputs give agreeing results, and the destination range of a command that completes without
fault is the buffer its result is written to, or empty. -/
theorem resultDependsOnlyOnWhatTheCommandReads : Obligations.ResultDependsOnlyOnWhatTheCommandReads := by
  unfold Obligations.ResultDependsOnlyOnWhatTheCommandReads
  intro i s s' t t' hin ht ht'
  have hagrees := commandResult_agrees hin
  rw [exec_eq] at ht ht'
  cases ht
  cases ht'
  refine ⟨hagrees.finish_cause s s', fun hcause a hlo hhi => ?_⟩
  obtain rfl | ⟨c, hfault⟩ | ⟨d, out, houtput, hrange⟩ := commandResult_cases i s
  · simp only [destRange] at hlo hhi
    omega
  · rw [hfault] at hcause
    exact absurd hcause (Cause.code_range c).1
  · rw [houtput] at hagrees ⊢
    rw [hrange] at hlo hhi
    exact hagrees.finish_read s s' hlo hhi

end Sys2Proof.Machine
end
section
/-! SUPPORT. The register map (10_state.md R21): `Reg.offset` and `regAt` are inverse, and the offsets of the registers are
exactly those R21 names. -/

namespace Sys2Proof.Machine

/-- A register below 0x100 stands at its own offset only. -/
theorem lowRegAt_eq_some {off : Nat} {r : Reg} (h : lowRegAt off = some r) : r.offset = off := by
  unfold lowRegAt at h
  repeat
    obtain ⟨rfl, h⟩ | ⟨-, h⟩ := ite_eq_iff.1 h
    · cases h
      rfl
  cases h

/-- Every register stands at its offset. -/
@[simp] theorem regAt_offset (r : Reg) : regAt r.offset = some r := by
  cases r with
  | kram i =>
    show regAt (0x100 + 4 * i.val) = _
    unfold regAt
    rw [if_neg (by omega), if_neg (by omega), if_pos (by omega), dif_pos (by omega)]
    simp
  | krom i =>
    show regAt (0x800 + 4 * i.val) = _
    unfold regAt
    rw [if_neg (by omega), if_neg (by omega), if_neg (by omega), if_pos (by omega), dif_pos (by omega)]
    simp
  | kromDiv i =>
    show regAt (0xE00 + 4 * i.val) = _
    unfold regAt
    rw [if_neg (by omega), if_neg (by omega), if_neg (by omega), if_neg (by omega), dif_pos (by omega)]
    simp
  | _ => rfl

/-- A register stands at its own offset only. -/
theorem regAt_eq_some {off : Nat} {r : Reg} (h : regAt off = some r) : r.offset = off := by
  unfold regAt at h
  split_ifs at h
  · exact lowRegAt_eq_some h
  all_goals
    cases h
    simp only [Reg.offset]
    omega

theorem Reg.offset_aligned_mapped (r : Reg) : r.offset % 4 = 0 ∧ MappedOffset r.offset := by
  unfold MappedOffset
  cases r with
  | kram i => simp only [Reg.offset]; omega
  | krom i => simp only [Reg.offset]; omega
  | kromDiv i => simp only [Reg.offset]; omega
  | _ => decide

/-- The aligned offsets below 0x100 that 10_state.md R21 names have registers. -/
theorem lowRegAt_isSome : ∀ off < 0x50, off % 4 = 0 →
    (off ≤ 0x018 ∨ (0x020 ≤ off ∧ off ≤ 0x028) ∨ (0x030 ≤ off ∧ off ≤ 0x038) ∨ (0x040 ≤ off ∧ off ≤ 0x04C)) →
    (lowRegAt off).isSome = true := by
  decide

theorem exists_reg_of_mapped {off : Nat} (halign : off % 4 = 0) (hmap : MappedOffset off) :
    ∃ r : Reg, r.offset = off := by
  unfold MappedOffset at hmap
  by_cases hlow : off < 0x50
  · obtain ⟨r, hr⟩ := Option.isSome_iff_exists.1 (lowRegAt_isSome off hlow halign (by omega))
    exact ⟨r, lowRegAt_eq_some hr⟩
  · obtain h | h | h : (0x100 ≤ off ∧ off ≤ 0x1C0) ∨ (0x800 ≤ off ∧ off ≤ 0xDCC) ∨ (0xE00 ≤ off ∧ off ≤ 0xE4C) := by
      omega
    · exact ⟨.kram ⟨(off - 0x100) / 4, by omega⟩, by simp only [Reg.offset]; omega⟩
    · exact ⟨.krom ⟨(off - 0x800) / 4, by omega⟩, by simp only [Reg.offset]; omega⟩
    · exact ⟨.kromDiv ⟨(off - 0xE00) / 4, by omega⟩, by simp only [Reg.offset]; omega⟩

theorem exists_regAt_iff (off : Nat) : (∃ r, regAt off = some r) ↔ off % 4 = 0 ∧ MappedOffset off := by
  constructor
  · rintro ⟨r, hr⟩
    rw [← regAt_eq_some hr]
    exact r.offset_aligned_mapped
  · rintro ⟨halign, hmap⟩
    obtain ⟨r, rfl⟩ := exists_reg_of_mapped halign hmap
    exact ⟨r, regAt_offset r⟩

/-- Settles O12: `regAt` is the inverse of `Reg.offset`, whose values are the offsets printed. -/
theorem registerMapIsThePublishedOne : Obligations.RegisterMapIsThePublishedOne := by
  unfold Obligations.RegisterMapIsThePublishedOne
  refine ⟨?_, fun i => regAt_offset (.kram i), fun i => regAt_offset (.krom i), fun i => regAt_offset (.kromDiv i),
    regAt_offset, fun _ _ => regAt_eq_some, exists_regAt_iff⟩
  decide

end Sys2Proof.Machine
end

section
/-! SUPPORT. What a turn of the host or of the reset input does, said once (20_memory.md R60, R66 to R70): the rules for
an access to a register of the map, and every effect such a turn can have. -/

namespace Sys2Proof.Machine

/-! ### Accesses to a register of the map -/

/-- A write to the register is accepted (20_memory.md R67, R68 items 3 and 4). -/
def State.AcceptsWrite (s : State) (r : Reg) : Prop := r.readOnly = false ∧ (s.busy = true → r.writableBusy = true)

@[simp] theorem accessedReg_offset (r : Reg) : accessedReg 32 r.offset = some r := regAt_offset r

theorem accessedReg_eq_some {width off : Nat} {r : Reg} (h : accessedReg width off = some r) :
    width = 32 ∧ off = r.offset := by
  unfold accessedReg at h
  split_ifs at h with hwidth
  exact ⟨hwidth, (regAt_eq_some h).symm⟩

theorem State.writtenReg_of_accepts {s : State} {r : Reg} (h : s.AcceptsWrite r) :
    s.writtenReg 32 r.offset = some r := by
  obtain ⟨hro, hbusy⟩ := h
  have hb : (s.busy && !r.writableBusy) = false := by simpa using hbusy
  simp [State.writtenReg, hro, hb]

/-- A write reaches the register it names, and only if that register accepts it. -/
theorem State.writtenReg_eq_some {s : State} {width off : Nat} {r : Reg} (h : s.writtenReg width off = some r) :
    width = 32 ∧ off = r.offset ∧ s.AcceptsWrite r := by
  unfold State.writtenReg at h
  split at h
  · next q hq =>
    split_ifs at h with haccept
    cases h
    obtain ⟨hwidth, hoff⟩ := accessedReg_eq_some hq
    exact ⟨hwidth, hoff, by simpa [State.AcceptsWrite] using haccept⟩
  · cases h

section
variable {s : State} {rest : List Turn} {r : Reg}

/-- A read of a register of the map answers its word and does nothing else (20_memory.md R70). -/
theorem step_regRead (h : s.turns = .regRead 32 r.offset :: rest) :
    step s = .next { s with turns := rest, resp := .okWord (s.regWord r) } := by
  simp only [step, h, State.hostTurn, State.hostRegRead, accessedReg_offset]
  cases r <;> rfl

/-- An accepted write of a register of the map answers `ok` and does what the register's own rule says. -/
theorem step_regWrite_accepted {v : Word} (h : s.turns = .regWrite 32 r.offset v :: rest) (hr : s.AcceptsWrite r) :
    step s = .next { State.writeReg { s with turns := rest } r v with resp := .okWrite } := by
  have hw : State.writtenReg { s with turns := rest } 32 r.offset = some r := State.writtenReg_of_accepts hr
  simp only [step, h, State.hostTurn, State.hostRegWrite, hw]

/-- A refused write of a register of the map sets the sticky bit of refused accesses and nothing else (20_memory.md
R68). -/
theorem step_regWrite_refused {v : Word} (h : s.turns = .regWrite 32 r.offset v :: rest) (hr : ¬ s.AcceptsWrite r) :
    step s = .next { s with turns := rest, resp := .errWrite, esticky := s.esticky ||| 0x2000#14 } := by
  have hw : State.writtenReg { s with turns := rest } 32 r.offset = none := by
    refine Option.eq_none_iff_forall_ne_some.2 fun q hq => ?_
    obtain ⟨-, hoff, hq⟩ := State.writtenReg_eq_some hq
    have hqr : some r = some q := by rw [← regAt_offset r, hoff, regAt_offset]
    cases hqr
    exact hr hq
  simp only [step, h, State.hostTurn, State.hostRegWrite, hw]
  rfl

end

/-! ### Every effect of a turn of the host or of the reset input -/

/-- The response of a refused access (20_memory.md R68). -/
def Response.IsErr (a : Response) : Prop := a = .errWrite ∨ (∃ d, a = .errWord d) ∨ ∃ d, a = .errByte d

/-- What a turn of the host or of the reset input can leave (20_memory.md R60, R67 to R70; 70_reset_and_hazards.md R330):
a response alone, a refusal, an accepted register write, an accepted pixel write, or the reset. -/
inductive State.HostEffect (s : State) : Turn → State → Prop where
  | answer (t : Turn) (a : Response) : HostEffect s t { s with resp := a }
  | refusal (t : Turn) (a : Response) (n : Nat) (ha : a.IsErr) :
      HostEffect s t { s.setRefused with resp := a, fresh := n }
  | regWrite (r : Reg) (v : Word) (hr : s.AcceptsWrite r) :
      HostEffect s (.regWrite 32 r.offset v) { s.writeReg r v with resp := .okWrite }
  | pixWrite (addr : Nat) (b : Byte) (haddr : addr < Config.pmemSize) (hidle : s.busy = false) :
      HostEffect s (.pixWrite 8 addr b) { s with pmem := Memory.put s.pmem addr b, resp := .okWrite }
  | reset : HostEffect s .hardReset s.doReset

theorem State.hostTurn_effect (s : State) (t : Turn) : s.HostEffect t (s.hostTurn t) := by
  cases t with
  | regRead width off =>
    show s.HostEffect _ (s.hostRegRead width off)
    unfold State.hostRegRead
    split
    · exact .answer _ _
    · exact .refusal _ _ _ (.inr (.inl ⟨_, rfl⟩))
  | regWrite width off v =>
    show s.HostEffect _ (s.hostRegWrite width off v)
    unfold State.hostRegWrite
    split
    · next r hr =>
      obtain ⟨rfl, rfl, haccept⟩ := State.writtenReg_eq_some hr
      exact .regWrite r v haccept
    · exact .refusal _ _ s.fresh (.inl rfl)
  | pixRead width addr =>
    show s.HostEffect _ (s.hostPixRead width addr)
    unfold State.hostPixRead
    split
    · exact .answer _ _
    · exact .refusal _ _ _ (.inr (.inr ⟨_, rfl⟩))
  | pixWrite width addr b =>
    show s.HostEffect _ (s.hostPixWrite width addr b)
    unfold State.hostPixWrite
    split
    · next haccept =>
      simp only [State.pixelAccepted, Bool.and_eq_true, decide_eq_true_eq, Bool.not_eq_true'] at haccept
      obtain ⟨⟨rfl, haddr⟩, hidle⟩ := haccept
      exact .pixWrite addr b haddr hidle
    · exact .refusal _ _ s.fresh (.inl rfl)
  | hardReset => exact .reset
  | engine => exact .answer .engine s.resp

/-! ### Completion and reset -/

/-- An idle engine does nothing (60_exceptions.md R311). -/
theorem engineTurn_of_idle {s : State} (h : s.busy = false) : engineTurn s = .next s := by
  rw [engineTurn, h, if_neg Bool.false_ne_true]

/-- The engine's turn with a command running is a completion with a code of 60_exceptions.md R291 or 0, after which pixel
memory is as before or holds an output that fits it. -/
theorem engineTurn_of_busy {s : State} (h : s.busy = true) : ∃ (m : Memory) (code : BitVec 5),
    engineTurn s = .next (State.complete { s with pmem := m } code) ∧ code.toNat ≤ 12 ∧
    (m = s.pmem ∨ ∃ d out, d.fits = true ∧ m = Memory.store s.pmem d out) := by
  obtain ⟨hidle, -⟩ | ⟨-, i, -, hturn⟩ | ⟨-, -, -, hturn⟩ := engineTurn_cases s
  · rw [h] at hidle
    cases hidle
  · rw [hturn]
    obtain ⟨c, -, hf⟩ | ⟨-, hf⟩ | ⟨d, out, hr, hf⟩ := s.finish_cases (commandResult i s) <;> rw [hf]
    · exact ⟨s.pmem, c.code, rfl, c.code_range.2.2, .inl rfl⟩
    · exact ⟨s.pmem, 0#5, rfl, by decide, .inl rfl⟩
    · exact ⟨_, 0#5, rfl, by decide, .inr ⟨d, out, (commandResult_output i s d out hr).1, rfl⟩⟩
  · exact ⟨s.pmem, _, hturn, by decide, .inl rfl⟩

/-- The destination of a running command that would write one fits pixel memory. -/
theorem State.runningDest?_fits {s : State} {d : Buffer} (h : s.runningDest? = some d) : d.fits = true := by
  unfold State.runningDest? at h
  split_ifs at h
  split at h
  · next i _ =>
    cases hr : commandResult i s with
    | output e out =>
      rw [hr] at h
      cases h
      exact (commandResult_output i s d out hr).1
    | fault c => rw [hr] at h; cases h
    | noOutput => rw [hr] at h; cases h
  · cases h

/-- An abort keeps the canonical form of pixel memory (70_reset_and_hazards.md R333). -/
theorem State.abort_wf {s : State} (h : Memory.wf s.pmem) : Memory.wf s.abort.pmem := by
  unfold State.abort
  split
  · next d hd => exact Memory.wf_fill _ _ _ _ h (by simpa [Buffer.fits] using State.runningDest?_fits hd)
  · exact h

end Sys2Proof.Machine
end

section
/-! SUPPORT. The invariant of the machine is kept by every operation of the state, and so by every step. -/

namespace Sys2Proof.Machine

section
variable {s t : State}

/-- The invariant speaks of pixel memory, the report and `ESTICKY` alone. -/
theorem State.Inv.of_same_report (h : s.Inv) (hpmem : t.pmem = s.pmem) (hbusy : t.busy = s.busy)
    (hdone : t.done = s.done) (herr : t.err = s.err) (hcause : t.cause = s.cause) (hsticky : t.esticky = s.esticky) :
    t.Inv where
  memory := hpmem ▸ h.memory
  busyIsSilent := by rw [hbusy, hdone, herr, hcause]; exact h.busyIsSilent
  causeCode := hcause ▸ h.causeCode
  errHasCause := by rw [herr, hcause]; exact h.errHasCause
  stickyBit0 := hsticky ▸ h.stickyBit0

/-- The model's own fields are free. -/
theorem State.Inv.with_own_fields (h : s.Inv) (ts : List Turn) (a : Response) (n : Nat) :
    State.Inv { s with turns := ts, resp := a, fresh := n } :=
  h.of_same_report rfl rfl rfl rfl rfl rfl

theorem State.Inv.with_pmem (h : s.Inv) {m : Memory} (hm : Memory.wf m) : State.Inv { s with pmem := m } :=
  ⟨hm, h.busyIsSilent, h.causeCode, h.errHasCause, h.stickyBit0⟩

theorem State.Inv.with_esticky (h : s.Inv) {e : BitVec 14} (he : e.getLsbD 0 = false) :
    State.Inv { s with esticky := e } :=
  ⟨h.memory, h.busyIsSilent, h.causeCode, h.errHasCause, he⟩

/-- Launch withdraws the report of the command before (40_common_execute.md R121). -/
theorem State.Inv.launch (h : s.Inv) (w : Word) : (s.launch w).Inv where
  memory := h.memory
  busyIsSilent _ := ⟨rfl, rfl, rfl⟩
  causeCode := by simp
  errHasCause := by simp
  stickyBit0 := h.stickyBit0

/-- A running command completes with `ERR` standing only beside a cause, since `ERR` was 0 while it ran. -/
theorem State.Inv.complete (h : s.Inv) (hbusy : s.busy = true) {code : BitVec 5} (hcode : code.toNat ≤ 12) :
    (s.complete code).Inv where
  memory := h.memory
  busyIsSilent := by simp
  causeCode := hcode
  errHasCause := by
    obtain ⟨-, herr, -⟩ := h.busyIsSilent hbusy
    by_cases h0 : code = 0#5
    · simp [h0, herr]
    · simp [h0]
  stickyBit0 := by
    by_cases h0 : code = 0#5
    · simpa [h0] using h.stickyBit0
    · have hpos : 0 < code.toNat := by
        rw [Nat.pos_iff_ne_zero]
        exact fun hz => h0 (BitVec.eq_of_toNat_eq hz)
      simpa [h0, hpos] using h.stickyBit0

/-- A host write can only take flags of the report away (10_state.md R25). -/
theorem State.Inv.writeStatus (h : s.Inv) (v : Word) : (s.writeStatus v).Inv where
  memory := h.memory
  busyIsSilent hbusy := by
    obtain ⟨hdone, herr, hcause⟩ := h.busyIsSilent hbusy
    simp [hdone, herr, hcause]
  causeCode := h.causeCode
  errHasCause herr := h.errHasCause (by simp at herr; exact herr.1)
  stickyBit0 := h.stickyBit0

theorem State.Inv.doReset (h : s.Inv) : s.doReset.Inv where
  memory := State.abort_wf h.memory
  busyIsSilent := by simp [State.doReset]
  causeCode := by simp [State.doReset]
  errHasCause := by simp [State.doReset]
  stickyBit0 := by simp [State.doReset]

theorem State.Inv.writeCtrl (h : s.Inv) (v : Word) : (s.writeCtrl v).Inv := by
  unfold State.writeCtrl
  split
  · exact h.doReset
  · exact h.of_same_report rfl rfl rfl rfl rfl rfl

/-- A write to an operand register, KRAM or a constant is no concern of the invariant. -/
theorem State.Inv.writeReg (h : s.Inv) (r : Reg) (v : Word) : (s.writeReg r v).Inv := by
  cases r with
  | ctrl => exact h.writeCtrl v
  | status => exact h.writeStatus v
  | esticky => exact h.with_esticky (by rw [BitVec.getLsbD_and, h.stickyBit0, Bool.false_and])
  | cmd => exact h.launch v
  | _ => exact h.of_same_report rfl rfl rfl rfl rfl rfl

theorem State.Inv.hostTurn (h : s.Inv) (turn : Turn) : (s.hostTurn turn).Inv := by
  have heffect := s.hostTurn_effect turn
  generalize s.hostTurn turn = t at heffect ⊢
  cases heffect with
  | answer _ a => exact h.with_own_fields _ a _
  | refusal _ a n _ =>
    have hsticky : (s.esticky ||| (1#14 <<< 13)).getLsbD 0 = false := by
      rw [BitVec.getLsbD_or, h.stickyBit0]
      rfl
    exact (h.with_esticky hsticky).with_own_fields _ a n
  | regWrite r v _ => exact (h.writeReg r v).with_own_fields _ _ _
  | pixWrite addr b haddr _ => exact (h.with_pmem (Memory.wf_put _ _ b h.memory haddr)).with_own_fields _ _ _
  | reset => exact h.doReset

theorem State.Inv.engineTurn (h : s.Inv) (ht : engineTurn s = .next t) : t.Inv := by
  cases hbusy : s.busy with
  | false =>
    rw [engineTurn_of_idle hbusy] at ht
    cases ht
    exact h
  | true =>
    obtain ⟨m, code, hturn, hcode, hm⟩ := engineTurn_of_busy hbusy
    rw [hturn] at ht
    cases ht
    have hwf : Memory.wf m := by
      obtain rfl | ⟨d, out, hfits, rfl⟩ := hm
      · exact h.memory
      · exact Memory.wf_fill _ _ _ _ h.memory (by simpa [Buffer.fits] using hfits)
    exact (h.with_pmem hwf).complete hbusy hcode

end

/-- Settles O57: a step is the engine's turn or a turn of the host or of the reset input, and each keeps the invariant. -/
theorem everyStepKeepsTheInvariant : Obligations.EveryStepKeepsTheInvariant := by
  unfold Obligations.EveryStepKeepsTheInvariant
  intro s t hs hstep
  have hafter : s.afterTurn.Inv := hs.with_own_fields _ _ _
  obtain ⟨-, hturn⟩ | ⟨turn, rest, -, -, hturn⟩ := step_cases s
  · exact hafter.engineTurn (hturn ▸ hstep)
  · rw [hturn] at hstep
    cases hstep
    exact hafter.hostTurn turn

end Sys2Proof.Machine
end

section
/-! SUPPORT. What the registers read as and what writes to them leave, for the statements on single registers
(10_state.md R22 to R42). -/

namespace Sys2Proof.Machine

/-! ### Launch, `STATUS` and `CTRL` -/

/-- Settles O7: `CMD` accepts a write exactly when the engine is idle, and its rule is the launch. -/
theorem cmdWriteLaunchesOrIsRefused : Obligations.CmdWriteLaunchesOrIsRefused := by
  unfold Obligations.CmdWriteLaunchesOrIsRefused
  refine ⟨fun s w rest h hidle => ?_, fun s w rest h hbusy => ?_, fun s rest h => step_regRead (r := .cmd) h, rfl⟩
  · have haccept : s.AcceptsWrite .cmd := ⟨rfl, by simp [hidle]⟩
    exact step_regWrite_accepted h haccept
  · have hrefuse : ¬ s.AcceptsWrite .cmd := fun haccept => absurd (haccept.2 hbusy) (by decide)
    exact step_regWrite_refused (r := .cmd) h hrefuse

theorem bitsWord_toNat (b0 b1 b2 : Bool) : (bitsWord b0 b1 b2).toNat = b0.toNat + 2 * b1.toNat + 4 * b2.toNat := by
  revert b0 b1 b2
  decide

/-- The registers that hold flags accept a write in either engine state (20_memory.md R67). -/
theorem State.acceptsWrite_of_writableBusy (s : State) {r : Reg} (hro : r.readOnly = false)
    (hr : r.writableBusy = true) : s.AcceptsWrite r :=
  ⟨hro, fun _ => hr⟩

/-- Settles O14: `STATUS` accepts a write in either engine state. -/
theorem statusIsWriteOneToClear : Obligations.StatusIsWriteOneToClear := by
  unfold Obligations.StatusIsWriteOneToClear
  refine ⟨fun s v rest h => ?_, fun s => bitsWord_toNat s.busy s.done s.err⟩
  exact step_regWrite_accepted (r := .status) h (s.acceptsWrite_of_writableBusy rfl rfl)

/-- Without bit 31 a write to `CTRL` is no reset (10_state.md R24). -/
theorem State.writeCtrl_of_not_srst {s : State} {v : Word} (h : v.getLsbD 31 = false) :
    s.writeCtrl v = s.writeEnables v := by
  rw [State.writeCtrl, h, if_neg Bool.false_ne_true]

/-- Settles O58: `CTRL` accepts a write in either engine state, and without bit 31 its rule sets the enables. -/
theorem ctrlWriteSetsTheEnables : Obligations.CtrlWriteSetsTheEnables := by
  unfold Obligations.CtrlWriteSetsTheEnables
  intro s v rest h h31
  rw [step_regWrite_accepted (r := .ctrl) h (s.acceptsWrite_of_writableBusy rfl rfl), State.writeReg,
    State.writeCtrl_of_not_srst h31]
  rfl

/-! ### Constants and flags as read -/

/-- `ESTICKY` reads as its bits 13:1, the rest 0 (10_state.md R27). -/
theorem State.estickyWord_getLsbD (s : State) (k : Nat) :
    s.estickyWord.getLsbD k = (decide (1 ≤ k ∧ k ≤ 13) && s.esticky.getLsbD k) := by
  have hmask : ∀ j < 14, estickyMask.getLsbD j = decide (1 ≤ j ∧ j ≤ 13) := by decide
  rw [State.estickyWord, BitVec.getLsbD_setWidth, BitVec.getLsbD_and]
  by_cases hk : k < 14
  · rw [hmask k hk, Bool.and_comm (s.esticky.getLsbD k), decide_eq_true (by omega : k < 32), Bool.true_and]
  · rw [BitVec.getLsbD_of_ge s.esticky k (by omega)]
    simp

/-- Every numerator of the kernel ROM fits 16 signed bits (44_kernel_rom.md R200). -/
theorem krom_range : ∀ n ∈ krom, -32768 ≤ n ∧ n < 32768 := by
  decide +kernel

theorem krom_length : krom.length = 372 := by
  decide +kernel

theorem kromDiv_range : ∀ d ∈ kromDiv, d < 2 ^ 32 := by
  decide +kernel

/-- `KROM[i]` reads as the numerator, sign-extended (10_state.md R41). -/
theorem State.regWord_krom_toInt (s : State) (i : Fin 372) : (s.regWord (.krom i)).toInt = krom.getD i.val 0 := by
  have hi : i.val < krom.length := i.isLt.trans_eq krom_length.symm
  obtain ⟨hlo, hhi⟩ := krom_range _ (List.getElem_mem hi)
  simp only [State.regWord, kromValue, List.getD_eq_getElem _ _ hi]
  exact BitVec.toInt_ofInt_eq_self (by decide) (by omega) (by omega)

/-- `KROMDIV[i]` reads as the divisor (10_state.md R42). -/
theorem State.regWord_kromDiv_toNat (s : State) (i : Fin 20) :
    (s.regWord (.kromDiv i)).toNat = kromDiv.getD i.val 0 := by
  have hi : i.val < kromDiv.length := i.isLt
  have hlt := kromDiv_range _ (List.getElem_mem hi)
  simp only [State.regWord, kromDivValue, List.getD_eq_getElem _ _ hi]
  rw [BitVec.toNat_ofNat, Nat.mod_eq_of_lt hlt]

/-- Settles O20: a read answers the register's word and does nothing else. -/
theorem constantsAndFlagsReadAsPublished : Obligations.ConstantsAndFlagsReadAsPublished := by
  unfold Obligations.ConstantsAndFlagsReadAsPublished
  intro s rest r h
  refine ⟨step_regRead h, ?id, ?cap, ?ctrl, ?cause, ?esticky, ?krom, ?kromDiv⟩
  case id => rintro rfl; rfl
  case cap => rintro rfl; rfl
  case ctrl => rintro rfl; exact bitsWord_toNat s.ieDone s.ieErr false
  case cause => rintro rfl; exact BitVec.toNat_setWidth_of_le (by decide)
  case esticky => rintro rfl; exact s.estickyWord_getLsbD
  case krom => rintro i rfl; exact s.regWord_krom_toInt i
  case kromDiv => rintro i rfl; exact s.regWord_kromDiv_toNat i

end Sys2Proof.Machine
end

section
/-! SUPPORT. Operand registers and KRAM (10_state.md R31 to R40): what an accepted write leaves in every register of the
map. -/

namespace Sys2Proof.Machine

/-- Cutting a word to its low `n` bits is masking it. -/
theorem setWidth_setWidth_eq_and {n : Nat} (v : Word) (hn : n ≤ 32) :
    (v.setWidth n).setWidth 32 = v &&& BitVec.ofNat 32 (2 ^ n - 1) := by
  have hpow : 2 ^ n ≤ 2 ^ 32 := Nat.pow_le_pow_right (by decide) hn
  have hpos : 0 < 2 ^ n := Nat.two_pow_pos n
  refine BitVec.eq_of_toNat_eq ?_
  rw [BitVec.toNat_setWidth_of_le hn, BitVec.toNat_setWidth, BitVec.toNat_and,
    BitVec.toNat_ofNat, Nat.mod_eq_of_lt (by omega : 2 ^ n - 1 < 2 ^ 32), Nat.and_two_pow_sub_one_eq_mod]

/-- `SRCn_DIM` holds the whole word, in two halves (10_state.md R33). -/
theorem extractLsb'_append_halves (v : Word) : v.extractLsb' 16 16 ++ v.extractLsb' 0 16 = v &&& 0xFFFFFFFF#32 := by
  have hones : 0xFFFFFFFF#32 = BitVec.allOnes 32 := by decide
  rw [hones, BitVec.and_allOnes]
  calc v.extractLsb' 16 16 ++ v.extractLsb' 0 16 = v.extractLsb' 0 (16 + 16) :=
        BitVec.extractLsb'_append_extractLsb'_eq_extractLsb' rfl
    _ = v := BitVec.extractLsb'_eq_self

/-- The model's own fields show in no register. -/
theorem State.regWord_with_own_fields (s : State) (q : Reg) (ts : List Turn) (a : Response) :
    State.regWord { s with turns := ts, resp := a } q = s.regWord q := by
  cases q <;> rfl

section
variable {s : State} {r : Reg} {v mask : Word}

theorem readOnly_of_operandMask (h : operandMask r = some mask) : r.readOnly = false := by
  cases r with
  | id | cap | cause | krom i | kromDiv i => cases h
  | _ => rfl

/-- An operand register reads back the written word, masked to its field (10_state.md R31 to R40). -/
theorem regWord_writeReg_self (h : operandMask r = some mask) : (s.writeReg r v).regWord r = v &&& mask := by
  cases r with
  | src0Dim | src1Dim => cases h; exact extractLsb'_append_halves v
  | src0Fmt | src1Fmt => cases h; exact setWidth_setWidth_eq_and v (n := 2) (by decide)
  | src0Base | src1Base | dstBase | scalar | kdiv => cases h; exact setWidth_setWidth_eq_and v (n := 24) (by decide)
  | gamma => cases h; exact setWidth_setWidth_eq_and v (n := 16) (by decide)
  | kram i =>
    cases h
    have hset : (s.writeReg (.kram i) v).regWord (.kram i) = (v.setWidth 16).setWidth 32 := by
      simp [State.writeReg, State.regWord]
    rw [hset]
    exact setWidth_setWidth_eq_and v (by decide)
  | _ => cases h

/-- A write to an operand register shows in no other register of the map. -/
theorem regWord_writeReg_other (h : operandMask r = some mask) {q : Reg} (hq : q ≠ r) :
    (s.writeReg r v).regWord q = s.regWord q := by
  cases r with
  | src0Base => cases q with | src0Base => exact absurd rfl hq | _ => rfl
  | src0Dim => cases q with | src0Dim => exact absurd rfl hq | _ => rfl
  | src0Fmt => cases q with | src0Fmt => exact absurd rfl hq | _ => rfl
  | src1Base => cases q with | src1Base => exact absurd rfl hq | _ => rfl
  | src1Dim => cases q with | src1Dim => exact absurd rfl hq | _ => rfl
  | src1Fmt => cases q with | src1Fmt => exact absurd rfl hq | _ => rfl
  | dstBase => cases q with | dstBase => exact absurd rfl hq | _ => rfl
  | scalar => cases q with | scalar => exact absurd rfl hq | _ => rfl
  | gamma => cases q with | gamma => exact absurd rfl hq | _ => rfl
  | kdiv => cases q with | kdiv => exact absurd rfl hq | _ => rfl
  | kram i =>
    cases q with
    | kram j =>
      have hij : i.val ≠ j.val := fun hval => hq (congrArg Reg.kram (Fin.ext hval.symm))
      simp [State.writeReg, State.regWord, Vector.getElem_set_ne, hij]
    | _ => rfl
  | _ => cases h

theorem writeReg_pmem_of_operand (h : operandMask r = some mask) : (s.writeReg r v).pmem = s.pmem := by
  cases r with
  | ctrl => cases h
  | _ => rfl

theorem writeReg_turns_of_operand (h : operandMask r = some mask) : (s.writeReg r v).turns = s.turns := by
  cases r with
  | ctrl => cases h
  | _ => rfl

end

/-- Two steps of the host's machine. -/
theorem core_run_two {s t u : State} (hst : step s = .next t) (htu : step t = .next u) :
    Sys2Proof.core.run 2 s = .next u := by
  have hst' : Sys2Proof.core.step s = .next t := hst
  have htu' : Sys2Proof.core.step t = .next u := htu
  simp only [Host.Core.run, hst', htu']

/-- Settles O13: the write is accepted and leaves the masked word in its register and every other register as it was; the
read answers that word. -/
theorem operandRegistersReadBackMasked : Obligations.OperandRegistersReadBackMasked := by
  unfold Obligations.OperandRegistersReadBackMasked
  intro s rest r v mask hidle hmask h
  have haccept : s.AcceptsWrite r := ⟨readOnly_of_operandMask hmask, by simp [hidle]⟩
  have hwrite := step_regWrite_accepted h haccept
  have hturns := writeReg_turns_of_operand (s := { s with turns := .regRead 32 r.offset :: rest }) (v := v) hmask
  refine ⟨_, core_run_two hwrite (step_regRead hturns), rfl, ?_, writeReg_pmem_of_operand hmask, fun q hq => ?_⟩
  · simp only [State.regWord_with_own_fields, regWord_writeReg_self hmask]
  · simp only [State.regWord_with_own_fields, regWord_writeReg_other hmask hq]

end Sys2Proof.Machine
end

section
/-! SUPPORT. Where the bits of `ESTICKY` come from and go (10_state.md R27; 20_memory.md R68; 60_exceptions.md R300). -/

namespace Sys2Proof.Machine

/-- What a register write does to `ESTICKY`: nothing, but for a soft reset and for a write to `ESTICKY` itself. -/
theorem writeReg_esticky_cases (s : State) (r : Reg) (v : Word) :
    (s.writeReg r v).esticky = s.esticky ∨
    (r = .ctrl ∧ v.getLsbD 31 = true ∧ (s.writeReg r v).esticky = 0#14) ∨
    (r = .esticky ∧ (s.writeReg r v).esticky = s.esticky &&& ~~~(v.setWidth 14)) := by
  cases r with
  | ctrl =>
    cases hsrst : v.getLsbD 31 with
    | true =>
      refine .inr (.inl ⟨rfl, rfl, ?_⟩)
      rw [State.writeReg, State.writeCtrl, hsrst, if_pos rfl]
      rfl
    | false =>
      rw [State.writeReg, State.writeCtrl_of_not_srst hsrst]
      exact .inl rfl
  | esticky => exact .inr (.inr ⟨rfl, rfl⟩)
  | _ => exact .inl rfl

/-- What a step does to `ESTICKY`: nothing, a reset, a host's write, the report of a fault, or that of a refused access. -/
theorem step_esticky_cases {s t : State} (h : step s = .next t) :
    t.esticky = s.esticky ∨
    (∃ turn rest, s.turns = turn :: rest ∧ turn.resets = true ∧ t.esticky = 0#14) ∨
    (∃ v rest, s.turns = .regWrite 32 0x014 v :: rest ∧ t.esticky = s.esticky &&& ~~~(v.setWidth 14)) ∨
    (s.busy = true ∧ t.busy = false ∧ t.done = true ∧ t.err = true ∧
      t.esticky = s.esticky ||| (1#14 <<< t.cause.toNat)) ∨
    (t.resp.IsErr ∧ t.esticky = s.esticky ||| (1#14 <<< 13)) := by
  obtain ⟨-, hturn⟩ | ⟨turn, rest, -, hturns, hturn⟩ := step_cases s <;> rw [hturn] at h
  · cases hbusy : s.busy with
    | false =>
      rw [engineTurn_of_idle (s := s.afterTurn) hbusy] at h
      cases h
      exact .inl rfl
    | true =>
      obtain ⟨m, code, hcomplete, -, -⟩ := engineTurn_of_busy (s := s.afterTurn) hbusy
      rw [hcomplete] at h
      cases h
      by_cases hcode : code = 0#5
      · exact .inl (by simp [hcode])
      · exact .inr (.inr (.inr (.inl (by simp [hcode]))))
  · have heffect := s.afterTurn.hostTurn_effect turn
    cases h
    generalize s.afterTurn.hostTurn turn = t at heffect ⊢
    cases heffect with
    | answer _ a => exact .inl rfl
    | refusal _ a n ha => exact .inr (.inr (.inr (.inr ⟨ha, rfl⟩)))
    | regWrite r v _ =>
      obtain hsame | ⟨rfl, hsrst, hreset⟩ | ⟨rfl, hclear⟩ := writeReg_esticky_cases s.afterTurn r v
      · exact .inl hsame
      · exact .inr (.inl ⟨_, rest, hturns, by simpa [Turn.resets, Reg.offset] using hsrst, hreset⟩)
      · exact .inr (.inr (.inl ⟨v, rest, hturns, hclear⟩))
    | pixWrite addr b _ _ => exact .inl rfl
    | reset => exact .inr (.inl ⟨_, rest, hturns, rfl, rfl⟩)

theorem getLsbD_or_bit (e : BitVec 14) (n : Nat) {k : Nat} (hk : k < 14) :
    (e ||| (1#14 <<< n)).getLsbD k = (e.getLsbD k || decide (k = n)) := by
  have hbit : (1#14 <<< n).getLsbD k = decide (k = n) := by
    rw [← BitVec.twoPow_eq, BitVec.getLsbD_twoPow]
    by_cases hkn : k = n
    · subst hkn
      simp [hk]
    · simp [hkn, Ne.symm hkn]
  rw [BitVec.getLsbD_or, hbit]

/-- In the word `ESTICKY` reads as, a write clears the bits written 1. -/
theorem writeEsticky_estickyWord (s : State) (v : Word) : (s.writeEsticky v).estickyWord = s.estickyWord &&& ~~~v := by
  refine BitVec.eq_of_getLsbD_eq fun k hk => ?_
  rw [BitVec.getLsbD_and, State.estickyWord_getLsbD, State.estickyWord_getLsbD]
  by_cases hk13 : 1 ≤ k ∧ k ≤ 13
  · have hk14 : k < 14 := by omega
    simp [hk13, hk14, hk]
  · simp [hk13]

/-- Settles O15: the bits of each case of `step_esticky_cases`. -/
theorem stickyBitsComeFromReportsAndGoByTheHost : Obligations.StickyBitsComeFromReportsAndGoByTheHost := by
  unfold Obligations.StickyBitsComeFromReportsAndGoByTheHost
  refine ⟨fun s v rest h => ?_, fun s t k hk1 hk13 hstep => ⟨fun hset hclear => ?_, fun hclear hset => ?_⟩⟩
  · have hwrite := step_regWrite_accepted (r := .esticky) h (s.acceptsWrite_of_writableBusy rfl rfl)
    exact ⟨_, hwrite, rfl, writeEsticky_estickyWord s v⟩
  · obtain hsame | ⟨turn, rest, hturns, hreset, -⟩ | ⟨v, rest, hturns, hwrite⟩ | ⟨-, -, -, -, hfault⟩ | ⟨-, hrefused⟩ :=
      step_esticky_cases hstep
    · rw [hsame, hset] at hclear
      cases hclear
    · exact .inl ⟨turn, rest, hturns, hreset⟩
    · refine .inr ⟨v, rest, hturns, ?_⟩
      have hk : k < 14 := by omega
      have hk32 : k < 32 := by omega
      simpa [hwrite, hset, BitVec.getLsbD_setWidth, hk, hk32] using hclear
    · rw [hfault, getLsbD_or_bit _ _ (by omega), hset] at hclear
      cases hclear
    · rw [hrefused, getLsbD_or_bit _ _ (by omega), hset] at hclear
      cases hclear
  · obtain hsame | ⟨-, -, -, -, hreset⟩ | ⟨v, -, -, hwrite⟩ | ⟨hs, ht, hdone, herr, hfault⟩ | ⟨herr, hrefused⟩ :=
      step_esticky_cases hstep
    · rw [hsame, hclear] at hset
      cases hset
    · simp [hreset] at hset
    · rw [hwrite, BitVec.getLsbD_and, hclear] at hset
      cases hset
    · rw [hfault, getLsbD_or_bit _ _ (by omega), hclear, Bool.false_or, decide_eq_true_eq] at hset
      exact .inl ⟨hs, ht, hdone, herr, hset.symm⟩
    · rw [hrefused, getLsbD_or_bit _ _ (by omega), hclear, Bool.false_or, decide_eq_true_eq] at hset
      exact .inr ⟨hset, herr⟩

end Sys2Proof.Machine
end

section
/-! SUPPORT. No command reads a flag (10_state.md R44). -/

namespace Sys2Proof.Machine

/-- A command's result is a function of the operand registers, KRAM and pixel memory. -/
theorem commandResult_with_flags (i : Instr) (s : State) (ieDone ieErr busy done err : Bool) (cause : BitVec 5)
    (esticky : BitVec 14) (cmd : Word) (turns : List Turn) (resp : Response) (fresh : Nat) :
    commandResult i { s with
      ieDone := ieDone, ieErr := ieErr, busy := busy, done := done, err := err, cause := cause,
      esticky := esticky, cmd := cmd, turns := turns, resp := resp, fresh := fresh } = commandResult i s := by
  cases i <;> rfl

/-- One result finished on two states with the same pixel memory leaves the same pixel memory and the same cause. -/
theorem State.finish_congr {s s' : State} (h : s'.pmem = s.pmem) (r : CommandResult) :
    (s'.finish r).pmem = (s.finish r).pmem ∧ (s'.finish r).cause = (s.finish r).cause := by
  cases r with
  | fault c => exact ⟨h, rfl⟩
  | noOutput => exact ⟨h, rfl⟩
  | output d out => exact ⟨congrArg (Memory.store · d out) h, rfl⟩

/-- Settles O25: the flags are no input of a command's result. -/
theorem flagsNeverInfluenceResults : Obligations.FlagsNeverInfluenceResults := by
  unfold Obligations.FlagsNeverInfluenceResults
  intro i s s' t t' hs' ht ht'
  have hresult : commandResult i s' = commandResult i s := by
    rw [hs']
    exact commandResult_with_flags i s ..
  rw [exec_eq] at ht ht'
  cases ht
  cases ht'
  have hpmem : s'.pmem = s.pmem := by rw [hs']
  rw [hresult]
  exact State.finish_congr hpmem _

end Sys2Proof.Machine
end

section
/-! SUPPORT. The accesses of the two ports by the published cases (20_memory.md R66 to R69): which are refused, what a
refusal leaves, what an accepted pixel access does, and that none disturbs a running command. -/

namespace Sys2Proof.Machine

/-! ### Refused and accepted, in the terms of 20_memory.md R68 -/

theorem Reg.readOnly_iff (r : Reg) : r.readOnly = true ↔ ReadOnlyOffset r.offset := by
  unfold ReadOnlyOffset
  cases r with
  | kram i | krom i | kromDiv i => simp [Reg.readOnly, Reg.offset]; omega
  | _ => decide

theorem Reg.writableBusy_iff (r : Reg) :
    r.writableBusy = true ↔ r.offset = 0x008 ∨ r.offset = 0x00C ∨ r.offset = 0x014 := by
  cases r with
  | kram i | krom i | kromDiv i => simp [Reg.writableBusy, Reg.offset]; omega
  | _ => decide

/-- The registers that take a write while a command runs (20_memory.md R67). -/
theorem Reg.eq_of_writableBusy {r : Reg} (h : r.writableBusy = true) : r = .ctrl ∨ r = .status ∨ r = .esticky := by
  cases r with
  | ctrl | status | esticky => simp
  | _ => cases h

/-- The reads that are not refused are the 32-bit reads of a register of the map. -/
theorem not_refusedRegRead_iff {width off : Nat} :
    ¬ RefusedRegRead width off ↔ width = 32 ∧ ∃ r : Reg, r.offset = off := by
  simp only [RefusedRegRead, not_or, not_not]
  refine and_congr_right fun _ => ⟨fun ⟨halign, hmap⟩ => exists_reg_of_mapped halign hmap, ?_⟩
  rintro ⟨r, rfl⟩
  exact r.offset_aligned_mapped

theorem State.refusedRegWrite_offset_iff (s : State) (r : Reg) :
    RefusedRegWrite s 32 r.offset ↔ ¬ s.AcceptsWrite r := by
  obtain ⟨halign, hmap⟩ := r.offset_aligned_mapped
  rw [RefusedRegWrite, State.AcceptsWrite, ← Bool.not_eq_true, r.readOnly_iff, r.writableBusy_iff]
  simp only [halign, hmap]
  tauto

/-- A write that reads are refused for is refused too (20_memory.md R68 items 1 and 2). -/
theorem RefusedRegRead.regWrite {width off : Nat} (h : RefusedRegRead width off) (s : State) :
    RefusedRegWrite s width off := by
  obtain h | h | h := h
  · exact .inl h
  · exact .inr (.inl h)
  · exact .inr (.inr (.inl h))

/-- The writes that are not refused are the 32-bit writes of a register of the map that accepts them. -/
theorem State.not_refusedRegWrite_iff {s : State} {width off : Nat} :
    ¬ RefusedRegWrite s width off ↔ width = 32 ∧ ∃ r : Reg, r.offset = off ∧ s.AcceptsWrite r := by
  constructor
  · intro h
    obtain ⟨rfl, r, rfl⟩ := not_refusedRegRead_iff.1 fun hread => h (hread.regWrite s)
    exact ⟨rfl, r, rfl, by rwa [s.refusedRegWrite_offset_iff, not_not] at h⟩
  · rintro ⟨rfl, r, rfl, haccept⟩
    rwa [s.refusedRegWrite_offset_iff, not_not]

theorem accessedReg_of_refused {width off : Nat} (h : RefusedRegRead width off) : accessedReg width off = none := by
  refine Option.eq_none_iff_forall_ne_some.2 fun r hr => ?_
  obtain ⟨hwidth, hoff⟩ := accessedReg_eq_some hr
  exact not_refusedRegRead_iff.2 ⟨hwidth, r, hoff.symm⟩ h

theorem State.writtenReg_of_refused {s : State} {width off : Nat} (h : RefusedRegWrite s width off) :
    s.writtenReg width off = none := by
  refine Option.eq_none_iff_forall_ne_some.2 fun r hr => ?_
  obtain ⟨hwidth, hoff, haccept⟩ := State.writtenReg_eq_some hr
  exact State.not_refusedRegWrite_iff.2 ⟨hwidth, r, hoff.symm, haccept⟩ h

theorem State.pixelAccepted_iff (s : State) (width addr : Nat) :
    s.pixelAccepted width addr = true ↔ ¬ RefusedPixel s width addr := by
  have hsize : Config.pmemSize = 2 ^ 24 := rfl
  simp only [State.pixelAccepted, RefusedPixel, hsize, Bool.and_eq_true, decide_eq_true_eq, Bool.not_eq_true', not_or,
    not_not, not_le, Bool.not_eq_true, and_assoc]

/-! ### One step of each access -/

section
variable {s : State} {turn : Turn} {rest : List Turn} {width a : Nat}

theorem step_eq_hostTurn (hne : turn ≠ .engine) (h : s.turns = turn :: rest) :
    step s = .next (State.hostTurn { s with turns := rest } turn) := by
  cases turn with
  | engine => exact absurd rfl hne
  | _ => simp only [step, h]

theorem step_regRead_of_refused (h : s.turns = .regRead width a :: rest) (hrefused : RefusedRegRead width a) :
    step s = .next { s with
      turns := rest, esticky := s.esticky ||| 0x2000#14, resp := .errWord (Config.refusedWord s.fresh),
      fresh := s.fresh + 1 } := by
  rw [step_eq_hostTurn (by simp) h, State.hostTurn, State.hostRegRead, accessedReg_of_refused hrefused]
  rfl

theorem step_regWrite_of_refused {v : Word} (h : s.turns = .regWrite width a v :: rest)
    (hrefused : RefusedRegWrite s width a) :
    step s = .next { s with turns := rest, esticky := s.esticky ||| 0x2000#14, resp := .errWrite } := by
  have hw : State.writtenReg { s with turns := rest } width a = none := State.writtenReg_of_refused hrefused
  rw [step_eq_hostTurn (by simp) h, State.hostTurn, State.hostRegWrite, hw]
  rfl

theorem step_pixRead_of_refused (h : s.turns = .pixRead width a :: rest) (hrefused : RefusedPixel s width a) :
    step s = .next { s with
      turns := rest, esticky := s.esticky ||| 0x2000#14, resp := .errByte (Config.refusedByte s.fresh),
      fresh := s.fresh + 1 } := by
  have hp : ¬ State.pixelAccepted { s with turns := rest } width a = true := fun hp =>
    (State.pixelAccepted_iff _ width a).1 hp hrefused
  rw [step_eq_hostTurn (by simp) h, State.hostTurn, State.hostPixRead, if_neg hp]
  rfl

theorem step_pixRead_of_accepted (h : s.turns = .pixRead width a :: rest) (haccept : ¬ RefusedPixel s width a) :
    step s = .next { s with turns := rest, resp := .okByte (Memory.read s.pmem a) } := by
  have hp : State.pixelAccepted { s with turns := rest } width a = true := (State.pixelAccepted_iff _ width a).2 haccept
  rw [step_eq_hostTurn (by simp) h, State.hostTurn, State.hostPixRead, if_pos hp]

theorem step_pixWrite_of_refused {b : Byte} (h : s.turns = .pixWrite width a b :: rest)
    (hrefused : RefusedPixel s width a) :
    step s = .next { s with turns := rest, esticky := s.esticky ||| 0x2000#14, resp := .errWrite } := by
  have hp : ¬ State.pixelAccepted { s with turns := rest } width a = true := fun hp =>
    (State.pixelAccepted_iff _ width a).1 hp hrefused
  rw [step_eq_hostTurn (by simp) h, State.hostTurn, State.hostPixWrite, if_neg hp]
  rfl

theorem step_pixWrite_of_accepted {b : Byte} (h : s.turns = .pixWrite width a b :: rest)
    (haccept : ¬ RefusedPixel s width a) :
    step s = .next { s with turns := rest, pmem := Memory.put s.pmem a b, resp := .okWrite } := by
  have hp : State.pixelAccepted { s with turns := rest } width a = true := (State.pixelAccepted_iff _ width a).2 haccept
  rw [step_eq_hostTurn (by simp) h, State.hostTurn, State.hostPixWrite, if_pos hp]

end

/-- Settles O11: each kind of access, refused and accepted. -/
theorem refusedAccessesAreExactlyThese : Obligations.RefusedAccessesAreExactlyThese := by
  unfold Obligations.RefusedAccessesAreExactlyThese
  refine fun s rest width a => ⟨fun h => ⟨?_, ?_⟩, fun v h => ⟨?_, ?_⟩, fun h => ⟨?_, ?_⟩, fun b h => ⟨?_, ?_⟩⟩
  · exact fun hrefused => ⟨_, step_regRead_of_refused h hrefused⟩
  · intro haccept
    obtain ⟨rfl, r, rfl⟩ := not_refusedRegRead_iff.1 haccept
    exact ⟨_, step_regRead h⟩
  · exact step_regWrite_of_refused h
  · intro haccept
    obtain ⟨rfl, r, rfl, hr⟩ := State.not_refusedRegWrite_iff.1 haccept
    exact ⟨_, step_regWrite_accepted h hr, rfl⟩
  · exact fun hrefused => ⟨_, step_pixRead_of_refused h hrefused⟩
  · exact fun haccept => ⟨_, step_pixRead_of_accepted h haccept⟩
  · exact step_pixWrite_of_refused h
  · exact fun haccept => ⟨_, step_pixWrite_of_accepted h haccept, rfl⟩

/-- Settles O19: below 2^24 and while idle neither pixel access is refused; a write is read back at its own address
only. -/
theorem pixelPortReadsAndWritesOneByte : Obligations.PixelPortReadsAndWritesOneByte := by
  unfold Obligations.PixelPortReadsAndWritesOneByte
  intro s a rest hidle ha
  have haccept : ¬ RefusedPixel s 8 a := by
    rintro (h | h | h)
    · exact h rfl
    · exact absurd ha (not_lt.2 h)
    · rw [hidle] at h
      cases h
  refine ⟨fun h => step_pixRead_of_accepted h haccept, fun b h => ⟨_, step_pixWrite_of_accepted h haccept, rfl, ?_, ?_⟩⟩
  · exact Memory.read_put_same _ _ _
  · exact fun k hk => Memory.read_put_other _ _ _ _ hk

/-! ### A running command is undisturbed -/

/-- From `s` to `t` at most `CTRL`, `DONE` and `ERR` (which can only be cleared), `ESTICKY` and the model's own fields
differ (20_memory.md R67). -/
def State.UndisturbedBy (s t : State) : Prop :=
  t = { s with
    ieDone := t.ieDone, ieErr := t.ieErr, done := t.done, err := t.err, esticky := t.esticky, resp := t.resp,
    fresh := t.fresh } ∧
  (s.done = false → t.done = false) ∧ (s.err = false → t.err = false)

/-- What a command reads is out of reach of the register writes that are accepted while it runs, but for the soft
reset. -/
theorem State.undisturbedBy_writeReg {s : State} {r : Reg} (hr : r.writableBusy = true) {v : Word}
    (hreset : r = .ctrl → v.getLsbD 31 = false) : s.UndisturbedBy { s.writeReg r v with resp := .okWrite } := by
  obtain rfl | rfl | rfl := Reg.eq_of_writableBusy hr
  · rw [State.writeReg, State.writeCtrl_of_not_srst (hreset rfl)]
    exact ⟨rfl, id, id⟩
  · refine ⟨rfl, fun hdone => ?_, fun herr => ?_⟩
    · simp [State.writeReg, hdone]
    · simp [State.writeReg, herr]
  · exact ⟨rfl, id, id⟩

theorem State.undisturbedBy_hostTurn {s : State} {turn : Turn} (hbusy : s.busy = true)
    (hreset : turn.resets = false) : s.UndisturbedBy (s.hostTurn turn) := by
  have heffect := s.hostTurn_effect turn
  generalize s.hostTurn turn = t at heffect ⊢
  cases heffect with
  | answer _ a => exact ⟨rfl, id, id⟩
  | refusal _ a n _ => exact ⟨rfl, id, id⟩
  | regWrite r v haccept =>
    refine State.undisturbedBy_writeReg (haccept.2 hbusy) ?_
    rintro rfl
    simpa [Turn.resets, Reg.offset] using hreset
  | pixWrite addr b _ hidle =>
    rw [hbusy] at hidle
    cases hidle
  | reset => cases hreset

/-- Settles O10: the step is the host's turn, and every effect such a turn can have on a busy machine leaves the command
undisturbed. -/
theorem runningCommandIsUndisturbed : Obligations.RunningCommandIsUndisturbed := by
  unfold Obligations.RunningCommandIsUndisturbed
  intro s turn rest hbusy h hne hreset
  exact ⟨_, step_eq_hostTurn hne h, State.undisturbedBy_hostTurn (s := { s with turns := rest }) hbusy hreset⟩

end Sys2Proof.Machine
end

section
/-! SUPPORT. The frame of a command (20_memory.md R71): its destination range and the report. -/

namespace Sys2Proof.Machine

/-- Finishing a result touches the report and pixel memory only (60_exceptions.md R300). -/
theorem State.finish_frame (s : State) (r : CommandResult) :
    s.finish r = { s with
      cause := (s.finish r).cause, err := (s.finish r).err, esticky := (s.finish r).esticky,
      done := (s.finish r).done, busy := (s.finish r).busy, pmem := (s.finish r).pmem } := by
  cases r <;> rfl

/-- An output changes no byte outside its buffer. -/
theorem State.finish_output_unchangedOutside (s : State) (d : Buffer) (out : Nat → Nat → Nat → Nat) :
    UnchangedOutside s (s.finish (.output d out)) d.base d.size := by
  intro k hk
  exact (Memory.read_store s.pmem d out k).trans (if_neg (by omega))

/-- A command changes no byte outside its destination range, which is empty for NOP. -/
theorem finish_commandResult_unchangedOutside (i : Instr) (s : State) :
    UnchangedOutside s (s.finish (commandResult i s)) (destRange i s).1 (destRange i s).2 := by
  obtain rfl | ⟨c, hfault⟩ | ⟨d, out, hout, hrange⟩ := commandResult_cases i s
  · exact fun _ _ => rfl
  · rw [hfault]
    exact fun _ _ => rfl
  · rw [hout, hrange]
    exact s.finish_output_unchangedOutside d out

/-- Settles O24: every command finishes its result. -/
theorem onlyTheDestinationRangeChanges : Obligations.OnlyTheDestinationRangeChanges := by
  unfold Obligations.OnlyTheDestinationRangeChanges
  intro i s t h
  rw [exec_eq] at h
  cases h
  exact ⟨finish_commandResult_unchangedOutside i s, s.finish_frame _⟩

end Sys2Proof.Machine
end

section
/-! SUPPORT. The fields of a word (30_encoding.md R91 to R100): the encoder puts each operand in its own field, and a
word is put together again from its fields. -/

namespace Sys2Proof

/-! ### The fields of an assembled word -/

section
variable (op : BitVec 4) (bp : BitVec 2) (ksel : BitVec 4) (neg : Bool) (size angles : BitVec 4) (sc : Bool)
  (mode : BitVec 2)

@[simp] theorem bpField_assembleWord : bpField (assembleWord op bp ksel neg size angles sc mode) = bp := by
  unfold bpField assembleWord
  iterate 7 rw [BitVec.extractLsb'_append_eq_of_le (by decide)]
  exact BitVec.extractLsb'_append_eq_right

@[simp] theorem kselField_assembleWord : kselField (assembleWord op bp ksel neg size angles sc mode) = ksel := by
  unfold kselField assembleWord
  iterate 6 rw [BitVec.extractLsb'_append_eq_of_le (by decide)]
  exact BitVec.extractLsb'_append_eq_right

@[simp] theorem negField_assembleWord : negField (assembleWord op bp ksel neg size angles sc mode) = neg := by
  simp only [negField, assembleWord, BitVec.getLsbD_append]
  simp

@[simp] theorem sizeField_assembleWord : sizeField (assembleWord op bp ksel neg size angles sc mode) = size := by
  unfold sizeField assembleWord
  iterate 4 rw [BitVec.extractLsb'_append_eq_of_le (by decide)]
  exact BitVec.extractLsb'_append_eq_right

@[simp] theorem anglesField_assembleWord :
    anglesField (assembleWord op bp ksel neg size angles sc mode) = angles := by
  unfold anglesField assembleWord
  iterate 3 rw [BitVec.extractLsb'_append_eq_of_le (by decide)]
  exact BitVec.extractLsb'_append_eq_right

@[simp] theorem modeField_assembleWord : modeField (assembleWord op bp ksel neg size angles sc mode) = mode := by
  unfold modeField assembleWord
  rw [BitVec.extractLsb'_append_eq_of_le (by decide)]
  exact BitVec.extractLsb'_append_eq_right

end

/-! ### A word from its fields -/

section
variable {w : Word}

/-- A word whose ten low bits are 0 is the assembled word of its fields. -/
theorem assembleWord_eq {op : BitVec 4} {bp : BitVec 2} {ksel : BitVec 4} {neg : Bool} {size angles : BitVec 4}
    {sc : Bool} {mode : BitVec 2} (hop : opField w = op) (hbp : bpField w = bp) (hksel : kselField w = ksel)
    (hneg : w.extractLsb' 21 1 = BitVec.ofBool neg) (hsize : sizeField w = size) (hangles : anglesField w = angles)
    (hsc : w.extractLsb' 12 1 = BitVec.ofBool sc) (hmode : modeField w = mode) (hzeros : w.extractLsb' 0 10 = 0#10) :
    assembleWord op bp ksel neg size angles sc mode = w := by
  rw [assembleWord, ← hop, ← hbp, ← hksel, ← hneg, ← hsize, ← hangles, ← hsc, ← hmode, ← hzeros]
  unfold opField bpField kselField sizeField anglesField modeField
  iterate 8 rw [BitVec.extractLsb'_append_extractLsb'_eq_extractLsb' (by rfl)]
  exact BitVec.extractLsb'_eq_self

theorem extractLsb'_one_eq_ofBool (w : Word) (n : Nat) : w.extractLsb' n 1 = BitVec.ofBool (w.getLsbD n) := by
  ext k hk
  obtain rfl : k = 0 := by omega
  simp

/-- Bits that a row's mask covers are the row's own (30_encoding.md R104). -/
theorem field_of_and_eq {m p : Word} (h : w &&& m = p) {start len : Nat} {v : BitVec len}
    (hmask : m.extractLsb' start len = BitVec.allOnes len) (hpattern : p.extractLsb' start len = v) :
    w.extractLsb' start len = v := by
  rw [← hpattern, ← h, BitVec.extractLsb'_and, hmask, BitVec.and_allOnes]

/-! ### The words that match a row with operands: its own bits, and one operand in each field the mask leaves free -/

theorem assembleWord_of_convRow (h : w &&& 0xF001FFFF#32 = 0x10000000#32) :
    assembleWord 1#4 (bpField w) (kselField w) (negField w) (sizeField w) 0#4 false 0#2 = w :=
  assembleWord_eq (field_of_and_eq h rfl rfl) rfl rfl (extractLsb'_one_eq_ofBool w 21) rfl (field_of_and_eq h rfl rfl)
    (field_of_and_eq h rfl rfl) (field_of_and_eq h rfl rfl) (field_of_and_eq h rfl rfl)

theorem assembleWord_of_medianRow (h : w &&& 0xF3E1FFFF#32 = 0x20000000#32) :
    assembleWord 2#4 (bpField w) 0#4 false (sizeField w) 0#4 false 0#2 = w :=
  assembleWord_eq (field_of_and_eq h rfl rfl) rfl (field_of_and_eq h rfl rfl) (field_of_and_eq h rfl rfl) rfl
    (field_of_and_eq h rfl rfl) (field_of_and_eq h rfl rfl) (field_of_and_eq h rfl rfl) (field_of_and_eq h rfl rfl)

theorem assembleWord_of_sobelRow (h : w &&& 0xF3FE1FFF#32 = 0x30000000#32) :
    assembleWord 3#4 (bpField w) 0#4 false 0#4 (anglesField w) false 0#2 = w :=
  assembleWord_eq (field_of_and_eq h rfl rfl) rfl (field_of_and_eq h rfl rfl) (field_of_and_eq h rfl rfl)
    (field_of_and_eq h rfl rfl) rfl (field_of_and_eq h rfl rfl) (field_of_and_eq h rfl rfl)
    (field_of_and_eq h rfl rfl)

theorem assembleWord_of_grayRow (h : w &&& 0xFFFFF3FF#32 = 0x90000000#32) :
    assembleWord 9#4 0#2 0#4 false 0#4 0#4 false (modeField w) = w :=
  assembleWord_eq (field_of_and_eq h rfl rfl) (field_of_and_eq h rfl rfl) (field_of_and_eq h rfl rfl)
    (field_of_and_eq h rfl rfl) (field_of_and_eq h rfl rfl) (field_of_and_eq h rfl rfl) (field_of_and_eq h rfl rfl)
    rfl (field_of_and_eq h rfl rfl)

/-- Under a mask of ones a row's only word is its pattern. -/
theorem eq_of_and_ones {p : Word} (h : w &&& 0xFFFFFFFF#32 = p) : w = p := by
  have hones : 0xFFFFFFFF#32 = BitVec.allOnes 32 := by decide
  rwa [hones, BitVec.and_allOnes] at h

/-! ### The fields as numbers -/

theorem toNat_opField (w : Word) : (opField w).toNat = w.toNat / 2 ^ 28 := by
  have hlt := w.isLt
  rw [opField, BitVec.extractLsb'_toNat, Nat.shiftRight_eq_div_pow]
  omega

theorem toNat_bpField (w : Word) : (bpField w).toNat = w.toNat / 2 ^ 26 % 4 := by
  rw [bpField, BitVec.extractLsb'_toNat, Nat.shiftRight_eq_div_pow]

theorem toNat_kselField (w : Word) : (kselField w).toNat = w.toNat / 2 ^ 22 % 16 := by
  rw [kselField, BitVec.extractLsb'_toNat, Nat.shiftRight_eq_div_pow]

end

/-! ### The codes of the fields -/

theorem BoundaryPolicy.ofCode_eq_some {b : BitVec 2} {bp : BoundaryPolicy} : ofCode b = some bp ↔ b = bp.code := by
  cases bp <;> revert b <;> decide

theorem KernelSel.ofCode_eq_some {b : BitVec 4} {ksel : KernelSel} : ofCode b = some ksel ↔ b = ksel.code := by
  cases ksel <;> revert b <;> decide

theorem GrayMode.ofCode_eq {b : BitVec 2} {mode : GrayMode} : ofCode b = mode ↔ b = mode.code := by
  cases mode <;> revert b <;> decide

theorem KernelSel.ofCode_code (ksel : KernelSel) : ofCode ksel.code = some ksel :=
  ofCode_eq_some.2 rfl

/-- The reserved boundary policy (30_encoding.md R94). -/
theorem BoundaryPolicy.ofCode_eq_none : ∀ {b : BitVec 2}, ofCode b = none ↔ b.toNat = 3 := by
  decide

/-- The reserved kernels (30_encoding.md R95). -/
theorem KernelSel.ofCode_eq_none : ∀ {b : BitVec 4}, ofCode b = none ↔ 9 ≤ b.toNat := by
  decide

end Sys2Proof
end

section
/-! SUPPORT. The opcode table (30_encoding.md R103, R104): its rows are disjoint, so a word selects the row it matches
and no other. -/

namespace Sys2Proof

variable {w : Word} {r r' : OpcodeRow}

theorem OpcodeRow.selects_iff : r.selects w = true ↔ w &&& r.mask = r.pattern := by
  simp [OpcodeRow.selects]

/-- Two rows that agree on the bits both masks cover are one row. -/
theorem opcodeTable_eq_of_agree : ∀ r ∈ opcodeTable, ∀ r' ∈ opcodeTable,
    r.pattern &&& r'.mask = r'.pattern &&& r.mask → r = r' := by
  decide

/-- Settles O4: rows that one word matches agree with it, hence with each other, on the bits both masks cover. -/
theorem opcodeRowsAreDisjoint : Obligations.OpcodeRowsAreDisjoint := by
  unfold Obligations.OpcodeRowsAreDisjoint
  intro w r r' hr hr' hsel hsel'
  refine opcodeTable_eq_of_agree r hr r' hr' ?_
  rw [← OpcodeRow.selects_iff.1 hsel, ← OpcodeRow.selects_iff.1 hsel']
  ac_rfl

theorem selectRow_eq_none_iff : selectRow w = none ↔ ∀ r ∈ opcodeTable, w &&& r.mask ≠ r.pattern := by
  simp [selectRow, OpcodeRow.selects]

theorem selectRow_eq_some_iff {op : Op} :
    selectRow w = some op ↔ ∃ r ∈ opcodeTable, r.op = op ∧ w &&& r.mask = r.pattern := by
  simp only [selectRow, Option.map_eq_some_iff]
  constructor
  · rintro ⟨r, hfind, rfl⟩
    have hsel : r.selects w = true := List.find?_some (p := (OpcodeRow.selects · w)) hfind
    exact ⟨r, List.mem_of_find?_eq_some hfind, rfl, OpcodeRow.selects_iff.1 hsel⟩
  · rintro ⟨r, hr, rfl, hsel⟩
    have hsel := OpcodeRow.selects_iff.2 hsel
    obtain ⟨r', hfind⟩ : ∃ r', opcodeTable.find? (fun r => r.selects w) = some r' :=
      Option.isSome_iff_exists.1 (List.find?_isSome.2 ⟨r, hr, hsel⟩)
    have hsel' : r'.selects w = true := List.find?_some (p := (OpcodeRow.selects · w)) hfind
    obtain rfl := opcodeRowsAreDisjoint w r r' hr (List.mem_of_find?_eq_some hfind) hsel hsel'
    exact ⟨r, hfind, rfl⟩

theorem selectRow_encode (i : Instr) : selectRow (encode i) = some i.op := by
  open Laws.EncodesInRow in
  cases i with
  | nop => exact nop
  | conv bp ksel neg kside => exact conv bp ksel neg kside
  | median bp radius => exact median bp radius
  | sobel bp angles => exact sobel bp angles
  | add => exact add
  | adds => exact adds
  | sub => exact sub
  | subs => exact subs
  | mul => exact mul
  | muls => exact muls
  | div => exact div
  | divs => exact divs
  | gamma => exact gamma
  | gray mode => exact gray mode

/-- Every row fixes `OP`: none is reserved, and the three windowed commands have the codes 1 to 3. -/
theorem opcodeTable_op : ∀ r ∈ opcodeTable, opField r.mask = BitVec.allOnes 4 ∧ (opField r.pattern).toNat < 10 ∧
    ((opField r.pattern).toNat = 1 ↔ r.op = .conv) ∧ ((opField r.pattern).toNat = 2 ↔ r.op = .median) ∧
    ((opField r.pattern).toNat = 3 ↔ r.op = .sobel) := by
  decide

end Sys2Proof
end

section
/-! SUPPORT. The decoder and the encoder are inverse to each other (30_encoding.md R102, R103). -/

namespace Sys2Proof

variable {w : Word} {i : Instr}

theorem decode_of_selectRow {op : Op} (h : selectRow w = some op) : decode w = decodeRow op w := by
  rw [decode, h]

theorem withPolicy_eq_ok_iff {f : BoundaryPolicy → Except DecodeError Instr} :
    withPolicy w f = .ok i ↔ ∃ bp, bpField w = bp.code ∧ f bp = .ok i := by
  simp only [← BoundaryPolicy.ofCode_eq_some]
  unfold withPolicy
  cases BoundaryPolicy.ofCode (bpField w) <;> simp

theorem Instr.wellFormed_conv_iff {bp : BoundaryPolicy} {ksel : KernelSel} {neg : Bool} {kside : Nat} :
    (Instr.conv bp ksel neg kside).WellFormed ↔ kside ≤ 15 := by
  simp [Instr.WellFormed, Instr.wellFormed]

theorem Instr.wellFormed_median_iff {bp : BoundaryPolicy} {radius : Int} :
    (Instr.median bp radius).WellFormed ↔ -8 ≤ radius ∧ radius ≤ 7 := by
  simp [Instr.WellFormed, Instr.wellFormed]

/-- Settles O1: the word selects its own row, and each field holds its operand. -/
theorem decodeOfEncodeIsTheCommand : Obligations.DecodeOfEncodeIsTheCommand := by
  unfold Obligations.DecodeOfEncodeIsTheCommand
  intro i hwf
  rw [decode_of_selectRow (selectRow_encode i)]
  cases i with
  | conv bp ksel neg kside =>
    have hside : (BitVec.ofNat 4 kside).toNat = kside :=
      Nat.mod_eq_of_lt (Nat.lt_succ_of_le (Instr.wellFormed_conv_iff.1 hwf))
    exact withPolicy_eq_ok_iff.2 ⟨bp, by simp [encode], by simp [encode, KernelSel.ofCode_code, hside]⟩
  | median bp radius =>
    obtain ⟨hlo, hhi⟩ := Instr.wellFormed_median_iff.1 hwf
    have hradius : (BitVec.ofInt 4 radius).toInt = radius :=
      BitVec.toInt_ofInt_eq_self (by decide) hlo (Int.lt_add_one_of_le hhi)
    exact withPolicy_eq_ok_iff.2 ⟨bp, by simp [encode], by simp [encode, hradius]⟩
  | sobel bp angles => exact withPolicy_eq_ok_iff.2 ⟨bp, by simp [encode], by simp [encode]⟩
  | gray mode => simp [Instr.op, decodeRow, encode, GrayMode.ofCode_eq]
  | _ => rfl

/-- The row's bits and the operands its command reads make up the whole word. -/
theorem wellFormed_and_encode_of_decodeRow {op : Op}
    (hrow : ∃ r ∈ opcodeTable, r.op = op ∧ w &&& r.mask = r.pattern) (h : decodeRow op w = .ok i) :
    i.WellFormed ∧ encode i = w := by
  cases op with
  | conv =>
    have hw := assembleWord_of_convRow (w := w) (by simpa [opcodeTable] using hrow)
    obtain ⟨bp, hbp, h⟩ := withPolicy_eq_ok_iff.1 h
    cases hksel : KernelSel.ofCode (kselField w) with
    | none => simp [hksel] at h
    | some ksel =>
      obtain rfl : _ = i := by simpa [hksel] using h
      refine ⟨Instr.wellFormed_conv_iff.2 (Nat.le_of_lt_succ (sizeField w).isLt), ?_⟩
      rwa [encode, ← hbp, ← KernelSel.ofCode_eq_some.1 hksel, BitVec.ofNat_toNat, BitVec.setWidth_eq]
  | median =>
    have hw := assembleWord_of_medianRow (w := w) (by simpa [opcodeTable] using hrow)
    obtain ⟨bp, hbp, h⟩ := withPolicy_eq_ok_iff.1 h
    cases h
    refine ⟨Instr.wellFormed_median_iff.2 ⟨(sizeField w).le_toInt, Int.le_of_lt_add_one (sizeField w).toInt_lt⟩, ?_⟩
    rwa [encode, ← hbp, BitVec.ofInt_toInt]
  | sobel =>
    have hw := assembleWord_of_sobelRow (w := w) (by simpa [opcodeTable] using hrow)
    obtain ⟨bp, hbp, h⟩ := withPolicy_eq_ok_iff.1 h
    cases h
    exact ⟨rfl, by rwa [encode, ← hbp]⟩
  | gray =>
    have hw := assembleWord_of_grayRow (w := w) (by simpa [opcodeTable] using hrow)
    cases h
    exact ⟨rfl, by rwa [encode, ← GrayMode.ofCode_eq.1 rfl]⟩
  | _ =>
    cases h
    exact ⟨rfl, (eq_of_and_ones (by simpa [opcodeTable, encode, assembleWord] using hrow)).symm⟩

theorem decode_of_selectRow_none (h : selectRow w = none) : ∃ e, decode w = .error e := by
  rw [decode, h]
  dsimp only
  split
  · exact ⟨_, rfl⟩
  · exact ⟨_, rfl⟩

/-- Settles O2: a word that decodes matches a row, and the row leaves only the operands' fields free. -/
theorem everyLegalWordHasOneMeaning : Obligations.EveryLegalWordHasOneMeaning := by
  unfold Obligations.EveryLegalWordHasOneMeaning
  intro w i h
  cases hsel : selectRow w with
  | none =>
    obtain ⟨e, he⟩ := decode_of_selectRow_none hsel
    rw [he] at h
    cases h
  | some op =>
    rw [decode_of_selectRow hsel] at h
    exact wellFormed_and_encode_of_decodeRow (selectRow_eq_some_iff.1 hsel) h

/-- A word decodes to a command exactly when it is the word of that command (30_encoding.md R103). -/
theorem decode_eq_ok_iff : decode w = .ok i ↔ i.WellFormed ∧ encode i = w :=
  ⟨everyLegalWordHasOneMeaning w i, fun ⟨hwf, hw⟩ => hw ▸ decodeOfEncodeIsTheCommand i hwf⟩

/-- Settles O5: each word is the encoding of the well-formed command beside it. -/
theorem publishedWordsDecode : Obligations.PublishedWordsDecode := by
  unfold Obligations.PublishedWordsDecode
  simp only [decode_eq_ok_iff]
  decide

end Sys2Proof
end

section
/-! SUPPORT. Illegal words (30_encoding.md R102): which they are, and what launching one does (60_exceptions.md
R293). -/

namespace Sys2Proof

variable {w : Word}

/-- A word that matches a row is illegal by its boundary policy or its kernel only (R102 items 3 and 4). -/
theorem decodeRow_eq_error_iff {op : Op} : (∃ e, decodeRow op w = .error e) ↔
    ((op = .conv ∨ op = .median ∨ op = .sobel) ∧ (bpField w).toNat = 3) ∨
      (op = .conv ∧ 9 ≤ (kselField w).toNat) := by
  rw [← BoundaryPolicy.ofCode_eq_none, ← KernelSel.ofCode_eq_none]
  cases op with
  | conv =>
    cases hbp : BoundaryPolicy.ofCode (bpField w) <;> cases hksel : KernelSel.ofCode (kselField w) <;>
      simp [decodeRow, withPolicy, hbp, hksel]
  | median | sobel => cases hbp : BoundaryPolicy.ofCode (bpField w) <;> simp [decodeRow, withPolicy, hbp]
  | _ => simp [decodeRow]

/-- The four items of 30_encoding.md R102. -/
theorem decode_eq_error_iff : (∃ e, decode w = .error e) ↔
    (10 ≤ (opField w).toNat ∨ (∀ r ∈ opcodeTable, w &&& r.mask ≠ r.pattern) ∨
     (((opField w).toNat = 1 ∨ (opField w).toNat = 2 ∨ (opField w).toNat = 3) ∧ (bpField w).toNat = 3) ∨
     ((opField w).toNat = 1 ∧ 9 ≤ (kselField w).toNat)) := by
  by_cases hrow : ∀ r ∈ opcodeTable, w &&& r.mask ≠ r.pattern
  · exact iff_of_true (decode_of_selectRow_none (selectRow_eq_none_iff.2 hrow)) (.inr (.inl hrow))
  · obtain ⟨r, hr, hsel⟩ : ∃ r ∈ opcodeTable, w &&& r.mask = r.pattern := by simpa using hrow
    obtain ⟨hmask, hlt, hconv, hmedian, hsobel⟩ := opcodeTable_op r hr
    have hop : opField w = opField r.pattern := field_of_and_eq hsel hmask rfl
    rw [decode_of_selectRow (selectRow_eq_some_iff.2 ⟨r, hr, rfl, hsel⟩), decodeRow_eq_error_iff, hop, hconv, hmedian,
      hsobel]
    simp only [hrow, Nat.not_le.2 hlt, false_or]

end Sys2Proof

namespace Sys2Proof.Machine

theorem step_of_engineNext {s : State} (h : s.engineNext) : step s = engineTurn s.afterTurn := by
  obtain ⟨-, hstep⟩ | ⟨turn, rest, hne, hturns, -⟩ := step_cases s
  · exact hstep
  · obtain hnil | ⟨rest', hengine⟩ := h
    · rw [hnil] at hturns
      cases hturns
    · rw [hengine] at hturns
      cases hturns
      exact absurd rfl hne

/-- Settles O3: the rejected words item by item, and the engine's turn on one of them. -/
theorem illegalWordsAreExactlyTheseAndOnlyReport : Obligations.IllegalWordsAreExactlyTheseAndOnlyReport := by
  unfold Obligations.IllegalWordsAreExactlyTheseAndOnlyReport
  refine ⟨fun w => ?_, fun s e hbusy hnext hdecode => ?_⟩
  · rw [decode_eq_error_iff, toNat_opField, toNat_bpField, toNat_kselField]
  · have hturn : engineTurn s.afterTurn = .next (s.afterTurn.complete Cause.illegalCommand.code) := by
      simp [engineTurn, State.fetchWord, State.rejectWord, hbusy, hdecode]
    exact ⟨_, (step_of_engineNext hnext).trans hturn, State.complete_fault _ _, rfl, rfl⟩

end Sys2Proof.Machine
end

section
/-! SUPPORT. The engine's turn and the host's schedule (40_common_execute.md R121 to R123): every step answers a next
state, takes one turn off the schedule, and the engine rests once the schedule is used up. -/

namespace Sys2Proof.Machine

section
variable {s t : State}

/-! ### The engine's turn -/

theorem engineTurn_of_decode {i : Instr} (hbusy : s.busy = true) (hdecode : decode s.cmd = .ok i) :
    engineTurn s = exec i s := by
  simp only [engineTurn, State.fetchWord, hbusy, hdecode, if_true]

/-- The engine's turn leaves the schedule as it is and the engine idle (60_exceptions.md R300, R311). -/
theorem engineTurn_rests (s : State) : ∃ t, engineTurn s = .next t ∧ t.turns = s.turns ∧ t.busy = false := by
  cases hbusy : s.busy with
  | false => exact ⟨s, engineTurn_of_idle hbusy, rfl, hbusy⟩
  | true =>
    obtain ⟨m, code, hturn, -, -⟩ := engineTurn_of_busy hbusy
    exact ⟨_, hturn, rfl, rfl⟩

/-! ### One step -/

/-- A step answers a next state and takes one turn off the schedule. -/
theorem step_next (s : State) : ∃ t, step s = .next t ∧ t.turns = s.turns.tail := by
  obtain ⟨-, hstep⟩ | ⟨turn, -, -, -, hstep⟩ := step_cases s
  · obtain ⟨t, hturn, hturns, -⟩ := engineTurn_rests s.afterTurn
    exact ⟨t, hstep.trans hturn, hturns⟩
  · exact ⟨_, hstep, State.hostTurn_turns _ _⟩

theorem step_of_no_turns (h : s.turns = []) : ∃ t, step s = .next t ∧ t.turns = [] ∧ t.busy = false := by
  obtain ⟨t, hturn, hturns, hidle⟩ := engineTurn_rests s.afterTurn
  exact ⟨t, (step_of_engineNext (.inl h)).trans hturn, by simp [hturns, h], hidle⟩

theorem step_of_decode {i : Instr} (hbusy : s.busy = true) (hnext : s.engineNext) (hdecode : decode s.cmd = .ok i) :
    step s = exec i s.afterTurn :=
  (step_of_engineNext hnext).trans (engineTurn_of_decode (s := s.afterTurn) hbusy hdecode)

/-! ### The launched word -/

/-- Placing a word launches it, with the engine's turn next (10_state.md R28). -/
theorem State.withFetchWord_eq (s : State) (w : Word) :
    s.withFetchWord 32 w.toNat = { s.launch w with turns := .engine :: s.turns } := by
  rw [State.withFetchWord, Nat.mod_eq_of_lt w.isLt, BitVec.ofNat_toNat, BitVec.setWidth_eq]

/-! ### Runs -/

theorem core_run_succ (k : Nat) (h : step s = .next t) : Sys2Proof.core.run (k + 1) s = Sys2Proof.core.run k t := by
  have h' : Sys2Proof.core.step s = .next t := h
  simp only [Host.Core.run, h']

end

/-- Settles O8: the engine's turn and every turn of the host answer a next state. -/
theorem everyStepAnswersNext : Obligations.EveryStepAnswersNext := by
  unfold Obligations.EveryStepAnswersNext
  intro s
  obtain ⟨t, hstep, -⟩ := step_next s
  exact ⟨t, hstep⟩

/-- Settles O9, by induction on the schedule: each turn takes one step, and the step after them is the engine's. -/
theorem engineComesToRest : Obligations.EngineComesToRest := by
  unfold Obligations.EngineComesToRest
  intro s
  induction hturns : s.turns generalizing s with
  | nil =>
    obtain ⟨t, hstep, hnone, hidle⟩ := step_of_no_turns hturns
    exact ⟨t, core_run_succ 0 hstep, hidle, hnone⟩
  | cons turn rest ih =>
    obtain ⟨t, hstep, htail⟩ := step_next s
    rw [hturns, List.tail_cons] at htail
    obtain ⟨u, hrun, hrest⟩ := ih t htail
    exact ⟨u, (core_run_succ _ hstep).trans hrun, hrest⟩

/-- Settles O6: the engine's turn runs the command in `CMD`, and `withFetchWord` puts one there. -/
theorem stepRunsDecodedCommand : Obligations.StepRunsDecodedCommand := by
  unfold Obligations.StepRunsDecodedCommand
  refine ⟨fun s i => step_of_decode, fun s w i hdecode => ?_⟩
  rw [State.withFetchWord_eq]
  exact step_of_decode (s := { s.launch w with turns := .engine :: s.turns }) rfl (.inr ⟨s.turns, rfl⟩) hdecode

/-- Settles O27: NOP finishes without an output, whatever the state. -/
theorem nopOnlySignalsCompletion : Obligations.NopOnlySignalsCompletion := by
  unfold Obligations.NopOnlySignalsCompletion
  exact fun s => exec_eq .nop s

end Sys2Proof.Machine
end

section
/-! SUPPORT. The clip and rounding unit against plain arithmetic (40_common_execute.md R130 to R133). -/

namespace Sys2Proof.Machine

/-- Settles O41: `clip` is the clamp to 0..255. -/
theorem clipSaturates : Obligations.ClipSaturates := by
  unfold Obligations.ClipSaturates
  intro v
  have hclip := clip_eq v
  omega

/-! ### `rne_div` -/

/-- For a positive divisor: within half of the quotient, and even where it lies half-way (40_common_execute.md R131). -/
theorem rneDivPos_nearest (n : Int) {d : Int} (hd : 0 < d) :
    2 * |n - rneDivPos n d * d| ≤ d ∧ (2 * |n - rneDivPos n d * d| = d → rneDivPos n d % 2 = 0) := by
  obtain ⟨q, m, rfl, hm0, hmd, hq⟩ := rneDivPos_cases n d hd
  have hdown : |q * d + m - q * d| = m := by rw [add_sub_cancel_left, abs_of_nonneg hm0]
  have hup : |q * d + m - (q + 1) * d| = d - m := by
    rw [show q * d + m - (q + 1) * d = -(d - m) by ring, abs_neg, abs_of_pos (by omega)]
  rw [hq]
  split_ifs with hlt hgt heven
  · rw [hdown]; omega
  · rw [hup]; omega
  · rw [hdown]; omega
  · rw [hup]; omega

theorem rneDiv_of_pos (n : Int) {d : Int} (hd : 0 < d) : rneDiv n d = rneDivPos n d :=
  if_neg (by omega)

theorem rneDiv_of_neg (n : Int) {d : Int} (hd : d < 0) : rneDiv n d = rneDivPos (-n) (-d) :=
  if_pos hd

/-- Settles O42: a negative divisor gives the quotient of the negated pair, at the same distance. -/
theorem rneDivRoundsToNearestTiesToEven : Obligations.RneDivRoundsToNearestTiesToEven := by
  unfold Obligations.RneDivRoundsToNearestTiesToEven
  intro n d hd
  obtain hneg | hpos := lt_or_gt_of_ne hd
  · have hnearest := rneDivPos_nearest (-n) (neg_pos.2 hneg)
    have hdist : -n - rneDivPos (-n) (-d) * -d = -(n - rneDivPos (-n) (-d) * d) := by ring
    rwa [hdist, abs_neg, ← rneDiv_of_neg n hneg, ← abs_of_neg hneg] at hnearest
  · rw [rneDiv_of_pos n hpos, abs_of_pos hpos]
    exact rneDivPos_nearest n hpos

section
variable {a n d : Int}

/-- Rounding does not fall below an integer that the quotient reaches. -/
theorem le_rneDiv (hd : 0 < d) (h : a * d ≤ n) : a ≤ rneDiv n d := by
  rw [rneDiv_of_pos n hd]
  obtain ⟨hnear, -⟩ := rneDivPos_nearest n hd
  by_contra hlt
  have hmul : (rneDivPos n d + 1) * d ≤ a * d := mul_le_mul_of_nonneg_right (by omega) hd.le
  have habs := le_abs_self (n - rneDivPos n d * d)
  linarith

/-- Rounding does not rise above an integer that the quotient does not pass. -/
theorem rneDiv_le (hd : 0 < d) (h : n ≤ a * d) : rneDiv n d ≤ a := by
  rw [rneDiv_of_pos n hd]
  obtain ⟨hnear, -⟩ := rneDivPos_nearest n hd
  by_contra hlt
  have hmul : (a + 1) * d ≤ rneDivPos n d * d := mul_le_mul_of_nonneg_right (by omega) hd.le
  have habs := neg_abs_le (n - rneDivPos n d * d)
  linarith

theorem rneDiv_mul_self (a : Int) (hd : 0 < d) : rneDiv (a * d) d = a :=
  le_antisymm (rneDiv_le hd le_rfl) (le_rneDiv hd le_rfl)

end

/-- Settles O43: outside [0, 255] both sides are the nearer end, and inside neither clips. -/
theorem roundThenClipEqualsClipThenRound : Obligations.RoundThenClipEqualsClipThenRound := by
  unfold Obligations.RoundThenClipEqualsClipThenRound
  intro n d hd
  rw [clip_eq]
  by_cases hlow : n < 0
  · have hround : rneDiv n d ≤ 0 := rneDiv_le hd (by omega)
    have hend : rneDiv 0 d = 0 := by simpa using rneDiv_mul_self 0 hd
    rw [show max 0 (min (255 * d) n) = 0 by omega, hend]
    omega
  · by_cases hhigh : 255 * d < n
    · have hround : 255 ≤ rneDiv n d := le_rneDiv hd hhigh.le
      rw [show max 0 (min (255 * d) n) = 255 * d by omega, rneDiv_mul_self 255 hd]
      omega
    · have hlo : 0 ≤ rneDiv n d := le_rneDiv hd (by omega)
      have hhi : rneDiv n d ≤ 255 := rneDiv_le hd (by omega)
      rw [show max 0 (min (255 * d) n) = n by omega]
      omega

/-! ### `rne_sqrt` -/

/-- The square of `r + 1/2` lies above `s`, and that of `r - 1/2` below, in integers (40_common_execute.md R133). -/
theorem rneSqrt_spec (s : Nat) :
    s ≤ rneSqrt s * rneSqrt s + rneSqrt s ∧ (rneSqrt s = 0 ∨ rneSqrt s * rneSqrt s < s + rneSqrt s) := by
  obtain ⟨hlo, hhi⟩ := isqrt_spec s
  have hsq : (isqrt s + 1) * (isqrt s + 1) = isqrt s * isqrt s + 2 * isqrt s + 1 := by ring
  unfold rneSqrt
  split <;> omega

/-- Settles O44: compare squares; at the root 0 the lower bound is the sign of the real root. -/
theorem rneSqrtRoundsToNearest : Obligations.RneSqrtRoundsToNearest := by
  unfold Obligations.RneSqrtRoundsToNearest
  intro s
  obtain ⟨hupper, hlower⟩ := rneSqrt_spec s
  generalize rneSqrt s = r at hupper hlower ⊢
  have habove : √(s : ℝ) < r + 1 / 2 := by
    have hupper : (s : ℝ) ≤ r * r + r := by exact_mod_cast hupper
    rw [Real.sqrt_lt' (by positivity)]
    nlinarith
  have hbelow : (r : ℝ) - 1 / 2 < √(s : ℝ) := by
    obtain rfl | hlower := hlower
    · have hnonneg := Real.sqrt_nonneg (s : ℝ)
      rw [Nat.cast_zero]
      linarith
    · have hlower : (r : ℝ) * r + 1 ≤ s + r := by exact_mod_cast hlower
      refine Real.lt_sqrt_of_sq_lt ?_
      nlinarith
  rw [abs_lt]
  constructor <;> linarith

end Sys2Proof.Machine
end

section
/-! SUPPORT. The boundary-policy logic against plain arithmetic (41_window_engine.md R152 to R156). -/

namespace Sys2Proof.Machine

/-! ### The coordinates replicate and reflect read -/

section
variable {t : Int} {n : Nat}

theorem replicateIndex_eq (t : Int) (n : Nat) : replicateIndex t n = (max 0 (min t ((n : Int) - 1))).toNat := by
  unfold replicateIndex clamp
  split_ifs <;> omega

theorem replicateIndex_of_inside (h0 : 0 ≤ t) (hn : t < n) : replicateIndex t n = t.toNat := by
  rw [replicateIndex_eq]
  omega

theorem mirror_of_inside (h0 : 0 ≤ t) (hn : t < n) : mirror t n = t.toNat := by
  unfold mirror
  rw [Int.emod_eq_of_lt h0 (by omega), if_pos hn]

/-- The first image beyond the far edge is read backwards, the edge pixel first (41_window_engine.md R155). -/
theorem mirror_of_beyond (hn : n ≤ t) (h2n : t < 2 * n) : mirror t n = (2 * n - 1 - t).toNat := by
  unfold mirror
  rw [Int.emod_eq_of_lt (by omega) h2n, if_neg (by omega)]

theorem mirror_add_period (t : Int) (n : Nat) : mirror (t + 2 * n) n = mirror t n := by
  unfold mirror
  rw [Int.add_emod_right]

/-- One period up, a coordinate before the near edge is one beyond the far edge (41_window_engine.md R155). -/
theorem mirror_of_before (hn : -(n : Int) ≤ t) (h0 : t < 0) : mirror t n = (-t - 1).toNat := by
  rw [← mirror_add_period, mirror_of_beyond (by omega) (by omega)]
  omega

end

/-- Settles O45: a clause for each interval; the interval before the image follows from the period. -/
theorem mirrorReflectsAtTheOuterEdge : Obligations.MirrorReflectsAtTheOuterEdge := by
  unfold Obligations.MirrorReflectsAtTheOuterEdge
  intro n t hn
  refine ⟨mirror_lt t hn, fun hlo hhi => ?_, fun hlo hhi => ?_, fun hlo hhi => ?_, mirror_add_period t n⟩
  · rw [mirror_of_inside hlo hhi, Int.toNat_of_nonneg hlo]
  · rw [mirror_of_before hlo hhi, Int.toNat_of_nonneg (by omega)]
  · rw [mirror_of_beyond hlo hhi, Int.toNat_of_nonneg (by omega)]

/-! ### The sample of each policy -/

section
variable (m : Memory) (b : Buffer) (yy xx : Int) (c : Nat)

theorem sample_zeroFill :
    sample m b .zeroFill yy xx c = if b.inside yy xx then pix m b yy.toNat xx.toNat c else 0 := rfl

theorem sample_replicate :
    sample m b .replicate yy xx c = pix m b (replicateIndex yy b.h) (replicateIndex xx b.w) c := rfl

theorem sample_reflect : sample m b .reflect yy xx c = pix m b (mirror yy b.h) (mirror xx b.w) c := rfl

variable {b yy xx}

/-- Inside the image the policies agree (41_window_engine.md R156 (a)). -/
theorem sample_of_inside (bp : BoundaryPolicy) (h : b.inside yy xx = true) :
    sample m b bp yy xx c = pix m b yy.toNat xx.toNat c := by
  obtain ⟨hy0, hyh, hx0, hxw⟩ := (b.inside_iff yy xx).1 h
  cases bp with
  | zeroFill => rw [sample_zeroFill, if_pos h]
  | replicate => rw [sample_replicate, replicateIndex_of_inside hy0 hyh, replicateIndex_of_inside hx0 hxw]
  | reflect => rw [sample_reflect, mirror_of_inside hy0 hyh, mirror_of_inside hx0 hxw]

theorem sample_zeroFill_of_outside (h : ¬ b.inside yy xx = true) : sample m b .zeroFill yy xx c = 0 := by
  rw [sample_zeroFill, if_neg h]

/-- Replicate and reflect map each coordinate into the image (41_window_engine.md R154, R155). -/
theorem sample_eq_pix_of_ne_zeroFill {bp : BoundaryPolicy} (hbp : bp ≠ .zeroFill) (yy xx : Int) (hh : 0 < b.h)
    (hw : 0 < b.w) : ∃ y x, y < b.h ∧ x < b.w ∧ sample m b bp yy xx c = pix m b y x c := by
  cases bp with
  | zeroFill => exact absurd rfl hbp
  | replicate => exact ⟨_, _, replicateIndex_lt yy hh, replicateIndex_lt xx hw, sample_replicate m b yy xx c⟩
  | reflect => exact ⟨_, _, mirror_lt yy hh, mirror_lt xx hw, sample_reflect m b yy xx c⟩

end

/-- Settles O46, a clause for each policy beside the agreement inside the image. -/
theorem boundaryPoliciesSourceSamplesAsStated : Obligations.BoundaryPoliciesSourceSamplesAsStated := by
  unfold Obligations.BoundaryPoliciesSourceSamplesAsStated
  intro m b bp yy xx c hh hw
  refine ⟨fun hy0 hyh hx0 hxw => ?_, fun hout => ?_, ?_, sample_reflect m b yy xx c, fun hbp => ?_⟩
  · exact sample_of_inside m c bp ((b.inside_iff yy xx).2 ⟨hy0, hyh, hx0, hxw⟩)
  · exact sample_zeroFill_of_outside m c (mt (b.inside_iff yy xx).1 hout)
  · rw [sample_replicate, replicateIndex_eq, replicateIndex_eq]
  · exact sample_eq_pix_of_ne_zeroFill m c hbp yy xx hh hw

end Sys2Proof.Machine
end

section
/-! SUPPORT. When a command faults and what a command that passes its checks completes with (60_exceptions.md R292, R300;
40_common_execute.md R124): the rules by which the commands that read source 0 alone are settled. -/

namespace Sys2Proof.Machine

/-! ### Faults -/

/-- A command faults with a cause exactly when that fault is its result (60_exceptions.md R300). -/
theorem faults_iff {i : Instr} {s : State} {c : Cause} : Faults i s c ↔ commandResult i s = .fault c := by
  constructor
  · rintro ⟨t, ht, hfault⟩
    rw [exec_eq] at ht
    cases ht
    have hcode : (s.finish (commandResult i s)).cause = c.code := congrArg State.cause hfault
    obtain ⟨d, hr, hfin⟩ | ⟨-, hfin⟩ | ⟨d, out, -, hfin⟩ := s.finish_cases (commandResult i s)
    · rw [hfin, State.complete_cause] at hcode
      rw [hr, Cause.code_inj d c hcode]
    all_goals
      rw [hfin, State.complete_cause] at hcode
      exact absurd hcode.symm (Cause.code_range c).1
  · intro h
    exact ⟨_, exec_eq i s, by rw [h]; exact s.complete_fault c⟩

theorem checked_output_eq_fault_iff {cs : List (Bool × Cause)} {d : Buffer} {out : Nat → Nat → Nat → Nat} {c : Cause} :
    checked cs (.output d out) = .fault c ↔ firstFailure cs = some c := by
  unfold checked
  cases firstFailure cs <;> simp

/-- The shape and address checks have causes of their own (60_exceptions.md R295, R296). -/
theorem firstFailure_unaryChecks {s : State} {c : Cause} (h : firstFailure s.unaryChecks = some c) :
    c = .invalidShape ∨ c = .addressRange ∨ c = .bufferOverlap := by
  have hmem := firstFailure_mem h
  simp only [State.unaryChecks, addressChecks1, shapeCheck, rangeCheck, List.mem_cons, Prod.mk.injEq,
    List.not_mem_nil, or_false] at hmem
  tauto

/-! ### What an output leaves in pixel memory -/

/-- The byte at the offset of element `(y, x, c)` is the value of that element (20_memory.md R62). -/
theorem outputByte_elementOffset (d : Buffer) (out : Nat → Nat → Nat → Nat) (y : Nat) {x c : Nat} (hx : x < d.w)
    (hc : c < d.c) : outputByte d out ((y * d.w + x) * d.c + c) = BitVec.ofNat 8 (out y x c) := by
  have hpixel : ((y * d.w + x) * d.c + c) / d.c = y * d.w + x := by
    rw [Nat.mul_comm, Nat.mul_add_div (by omega), Nat.div_eq_of_lt hc, Nat.add_zero]
  have hrow : (y * d.w + x) / d.w = y := by
    rw [Nat.mul_comm, Nat.mul_add_div (by omega), Nat.div_eq_of_lt hx, Nat.add_zero]
  rw [outputByte, hpixel, hrow, Nat.mul_add_mod_of_lt hx, Nat.mul_add_mod_of_lt hc]

theorem Memory.read_store_addr (m : Memory) {d : Buffer} (out : Nat → Nat → Nat → Nat) {y x c : Nat} (hy : y < d.h)
    (hx : x < d.w) (hc : c < d.c) :
    Memory.read (Memory.store m d out) (d.addr y x c) = BitVec.ofNat 8 (out y x c) := by
  rw [Memory.read_store, if_pos (Buffer.addr_mem_range hy hx hc), Buffer.addr, Nat.add_assoc,
    Nat.add_sub_cancel_left, outputByte_elementOffset d out y hx hc]

/-- Completing with an output of intensities writes them to its buffer. -/
theorem State.finish_output_writesBuffer (s : State) (d : Buffer) {out : Nat → Nat → Nat → Nat}
    (hout : ∀ y x c, out y x c ≤ 255) : WritesBuffer s (s.finish (.output d out)) d.base d.h d.w d.c out := by
  refine ⟨fun y x c hy hx hc => ?_, s.finish_output_unchangedOutside d out⟩
  have hread := congrArg BitVec.toNat (Memory.read_store_addr s.pmem out hy hx hc)
  rwa [BitVec.toNat_ofNat, Nat.mod_eq_of_lt (Nat.lt_succ_of_le (hout y x c))] at hread

/-! ### Commands that compute an output -/

section
variable {i : Instr} {s : State} {out out' : Nat → Nat → Nat → Nat}

/-- Only the values at the elements of the destination matter. -/
theorem Computes.congr (h : Computes i s out)
    (heq : ∀ y x c, y < s.src0.height.toNat → x < s.src0.width.toNat → c < s.src0.channels.toNat →
      out y x c = out' y x c) : Computes i s out' := by
  obtain ⟨t, hexec, hok, hbytes, houtside⟩ := h
  exact ⟨t, hexec, hok, fun y x c hy hx hc => (hbytes y x c hy hx hc).trans (heq y x c hy hx hc), houtside⟩

theorem computes_of_result (h : commandResult i s = .output s.dest out) (hout : ∀ y x c, out y x c ≤ 255) :
    Computes i s out := by
  refine ⟨_, exec_eq i s, ?_, ?_⟩
  · rw [h]
    rfl
  · rw [h]
    exact s.finish_output_writesBuffer s.dest hout

/-- A command with one source, its parameters passed and its operands in order, computes what stands behind its
checks. -/
theorem computes_of_unaryReady {params : List (Bool × Cause)}
    (h : commandResult i s = checked (params ++ s.unaryChecks) (.output s.dest out))
    (hparams : ∀ p ∈ params, p.1 = false) (hready : UnaryReady s) (hout : ∀ y x c, out y x c ≤ 255) :
    Computes i s out :=
  computes_of_result
    (h.trans (checked_of_pass (List.forall_mem_append.2 ⟨hparams, (unaryReady_iff s).1 hready⟩))) hout

end

end Sys2Proof.Machine
end

section
/-! SUPPORT. The kernel of CONV (42_linear_filter.md R173, R174; 44_kernel_rom.md R203): which parameters fault, where its
numerators and its divisor come from, and how large a numerator can be. -/

namespace Sys2Proof.Machine

/-! ### The parameter checks -/

theorem isSobelTable_iff {ksel : KernelSel} :
    isSobelTable ksel = true ↔ ksel ∈ [KernelSel.sobel0, .sobel45, .sobel90, .sobel135] := by
  cases ksel <;> decide

/-- The checks of 42_linear_filter.md R173, in their order. -/
theorem firstFailure_convChecks (s : State) (ksel : KernelSel) (k : Nat) : firstFailure (convChecks s ksel k) =
    if k % 2 = 0 then some .kernelSizeMismatch
    else if 7 < k then some .unsupportedSize
    else if isSobelTable ksel = true ∧ k ≠ 3 then some .unsupportedSize
    else if ksel = .kram ∧ s.kdivValue = 0 then some .invalidDivisor
    else none := by
  simp [convChecks, firstFailure, Config.maxSide]

theorem firstFailure_convChecks_eq_none_iff {s : State} {ksel : KernelSel} {k : Nat} (bp : BoundaryPolicy)
    (neg : Bool) : firstFailure (convChecks s ksel k) = none ↔ ParamsPass (.conv bp ksel neg k) s := by
  have hside : k = 1 ∨ k = 3 ∨ k = 5 ∨ k = 7 ↔ ¬ k % 2 = 0 ∧ ¬ 7 < k := by omega
  rw [firstFailure_convChecks, State.kdivValue, ParamsPass, hside]
  split_ifs <;> simp_all

section
variable {s : State} {bp : BoundaryPolicy} {ksel : KernelSel} {neg : Bool} {k : Nat} {c : Cause}

theorem faults_conv_iff :
    Faults (.conv bp ksel neg k) s c ↔
      (firstFailure (convChecks s ksel k)).or (firstFailure s.unaryChecks) = some c := by
  rw [faults_iff, commandResult, convResult, checked_output_eq_fault_iff, firstFailure_append]

/-- A parameter that fails ends the command (42_linear_filter.md R173). -/
theorem faults_conv_of_params (h : firstFailure (convChecks s ksel k) = some c) :
    Faults (.conv bp ksel neg k) s c := by
  rw [faults_conv_iff, h, Option.some_or]

/-- Past the parameters only a shape or an address faults. -/
theorem Faults.conv_cause (h : Faults (.conv bp ksel neg k) s c) (hparams : ParamsPass (.conv bp ksel neg k) s) :
    c = .invalidShape ∨ c = .addressRange ∨ c = .bufferOverlap := by
  rw [faults_conv_iff, (firstFailure_convChecks_eq_none_iff bp neg).2 hparams, Option.none_or] at h
  exact firstFailure_unaryChecks h

end

/-- Settles O35, a clause for each branch of the checks. -/
theorem convParameterFaults : Obligations.ConvParameterFaults := by
  unfold Obligations.ConvParameterFaults
  intro s bp ksel neg k
  have hchecks := firstFailure_convChecks s ksel k
  refine ⟨fun heven => ?even, fun hodd hbig => ?big, fun hside hsobel => ?sobel, fun hside hkram hkdiv => ?kram,
    fun hside hsobel hkram c hc hfault => ?pass⟩
  case even =>
    rw [if_pos heven] at hchecks
    exact faults_conv_of_params hchecks
  case big =>
    rw [if_neg (by omega), if_pos hbig] at hchecks
    exact faults_conv_of_params hchecks
  case sobel =>
    rw [if_neg (by omega), if_neg (by omega), if_pos ⟨isSobelTable_iff.2 hsobel, by omega⟩] at hchecks
    exact faults_conv_of_params hchecks
  case kram =>
    subst hkram
    rw [if_neg (by omega), if_neg (by omega), if_neg (by simp [isSobelTable, romNumber]),
      if_pos ⟨rfl, congrArg BitVec.toNat hkdiv⟩] at hchecks
    exact faults_conv_of_params hchecks
  case pass =>
    have hkdiv : ksel = .kram → s.kdiv.toNat ≠ 0 := fun h hzero => hkram h (BitVec.eq_of_toNat_eq hzero)
    obtain rfl | rfl | rfl := hfault.conv_cause ⟨hside, fun h => hsobel (isSobelTable_iff.1 h), hkdiv⟩ <;>
      exact absurd hc (by decide)

/-! ### Numerators and divisor -/

section
variable (s : State) (neg : Bool) (k i j : Nat)

theorem numerator_eq (ksel : KernelSel) :
    numerator s ksel neg k i j = negSign neg * baseNumerator s ksel k i j := by
  cases neg <;> simp [numerator, negSign]

theorem baseNumerator_kram : baseNumerator s .kram k i j = s.kramValue (i * k + j) := rfl

theorem divisor_kram : divisor s .kram k = s.kdiv.toNat := rfl

theorem baseNumerator_rom {ksel : KernelSel} (h : ksel ≠ .kram) :
    baseNumerator s ksel k i j = kromValue (romBase ksel k + i * k + j) := if_neg h

theorem divisor_rom {ksel : KernelSel} (h : ksel ≠ .kram) :
    divisor s ksel k = kromDivValue (romDivIndex ksel k) := if_neg h

variable {s} in
theorem kramValue_of_lt {n : Nat} (h : n < 49) : s.kramValue n = s.kram[n].toInt := by
  rw [State.kramValue, Vector.getElem?_eq_getElem h, Option.getD_some]

end

/-- The lookup of a ROM family (44_kernel_rom.md R203), at each of its sides with the offset of that side. -/
theorem romLookup_family : ∀ f ∈ [(KernelSel.ident, 0), (.mean, 1), (.gauss, 2), (.sharpen, 3)],
    ∀ q ∈ [(1, 0), (3, 1), (5, 10), (7, 35)],
    f.1 ≠ .kram ∧ romBase f.1 q.1 = 84 * f.2 + q.2 ∧
      kromDivValue (romDivIndex f.1 q.1) = kromDiv.getD (4 * f.2 + (q.1 - 1) / 2) 0 := by
  decide

/-- The lookup of a Sobel table (44_kernel_rom.md R203). -/
theorem romLookup_sobel : ∀ f ∈ [(KernelSel.sobel0, 4), (.sobel45, 5), (.sobel90, 6), (.sobel135, 7)],
    f.1 ≠ .kram ∧ romBase f.1 3 = 336 + 9 * (f.2 - 4) ∧
      kromDivValue (romDivIndex f.1 3) = kromDiv.getD (16 + (f.2 - 4)) 0 := by
  decide

/-- Settles O59: the lookup of R203 for the ROM kernels, the fields KRAM and KDIV for the host's kernel. -/
theorem kernelIsResolvedFromKromOrKram : Obligations.KernelIsResolvedFromKromOrKram := by
  unfold Obligations.KernelIsResolvedFromKromOrKram
  intro s neg
  refine ⟨fun f hf q hq => ?family, fun f hf => ?sobel, fun k hk => ⟨divisor_kram s k, fun i j hi hj => ?kram⟩⟩
  case family =>
    obtain ⟨hrom, hbase, hdiv⟩ := romLookup_family f hf q hq
    refine ⟨(divisor_rom s q.1 hrom).trans hdiv, fun i j _ _ => ?_⟩
    rw [numerator_eq, baseNumerator_rom s q.1 i j hrom, hbase, kromValue]
  case sobel =>
    obtain ⟨hrom, hbase, hdiv⟩ := romLookup_sobel f hf
    refine ⟨(divisor_rom s 3 hrom).trans hdiv, fun i j _ _ => ?_⟩
    rw [numerator_eq, baseNumerator_rom s 3 i j hrom, hbase, kromValue]
  case kram =>
    have hside : ∀ k ∈ [1, 3, 5, 7], k * k ≤ 49 := by decide
    have hentry : i * k + j < 49 := (mul_add_lt_mul hi hj).trans_le (hside k hk)
    exact ⟨hentry, by rw [numerator_eq, baseNumerator_kram, kramValue_of_lt hentry]⟩

/-! ### The size of a numerator (42_linear_filter.md R176) -/

theorem abs_kromValue_le (n : Nat) : |kromValue n| ≤ 32768 := by
  unfold kromValue
  by_cases h : n < krom.length
  · rw [List.getD_eq_getElem _ _ h, abs_le]
    have hrange := krom_range _ (List.getElem_mem h)
    omega
  · rw [List.getD_eq_default _ _ (by omega)]
    decide

theorem abs_kramValue_le (s : State) (n : Nat) : |s.kramValue n| ≤ 32768 := by
  have hlo := BitVec.le_toInt ((s.kram[n]?).getD 0#16)
  have hhi := BitVec.toInt_lt (x := (s.kram[n]?).getD 0#16)
  rw [State.kramValue, abs_le]
  omega

theorem abs_numerator_le (s : State) (ksel : KernelSel) (neg : Bool) (k i j : Nat) :
    |numerator s ksel neg k i j| ≤ 32768 := by
  have hsign : |negSign neg| = 1 := by cases neg <;> rfl
  rw [numerator_eq, abs_mul, hsign, one_mul]
  by_cases h : ksel = .kram
  · rw [h, baseNumerator_kram]
    exact abs_kramValue_le s _
  · rw [baseNumerator_rom s k i j h]
    exact abs_kromValue_le _

end Sys2Proof.Machine
end

section
/-! SUPPORT. The weighted accumulator of CONV (42_linear_filter.md R171, R172, R176) and what CONV stores: the rounded sum,
the source under the identity kernel (R178), a constant channel under a normalised kernel (R180). -/

namespace Sys2Proof.Machine

open scoped BigOperators

/-! ### Weighted sums -/

theorem weightedSum_eq_sum (k : Nat) (n : Nat → Nat → Int) (w : Nat → Nat → Nat) :
    weightedSum k n w = ∑ i ∈ Finset.range k, ∑ j ∈ Finset.range k, n i j * (w i j : Int) := rfl

/-- Numerators of size at most `b` and intensities bound the sum over a window (42_linear_filter.md R176). -/
theorem abs_weightedSum_le {k : Nat} {n : Nat → Nat → Int} {w : Nat → Nat → Nat} {b : Int}
    (hn : ∀ i j, |n i j| ≤ b) (hw : ∀ i j, w i j ≤ 255) : |weightedSum k n w| ≤ k * (k * (b * 255)) := by
  have hterm : ∀ i j, |n i j * (w i j : Int)| ≤ b * 255 := fun i j => by
    have hsample : |(w i j : Int)| ≤ 255 := by
      have := hw i j
      rw [Nat.abs_cast]
      omega
    rw [abs_mul]
    exact mul_le_mul (hn i j) hsample (abs_nonneg _) ((abs_nonneg _).trans (hn i j))
  have hrow : ∀ i, |∑ j ∈ Finset.range k, n i j * (w i j : Int)| ≤ k * (b * 255) := fun i =>
    calc |∑ j ∈ Finset.range k, n i j * (w i j : Int)|
        ≤ ∑ j ∈ Finset.range k, |n i j * (w i j : Int)| := Finset.abs_sum_le_sum_abs _ _
      _ ≤ (Finset.range k).card • (b * 255) := Finset.sum_le_card_nsmul _ _ _ fun j _ => hterm i j
      _ = k * (b * 255) := by rw [Finset.card_range, nsmul_eq_mul]
  rw [weightedSum_eq_sum]
  calc |∑ i ∈ Finset.range k, ∑ j ∈ Finset.range k, n i j * (w i j : Int)|
      ≤ ∑ i ∈ Finset.range k, |∑ j ∈ Finset.range k, n i j * (w i j : Int)| := Finset.abs_sum_le_sum_abs _ _
    _ ≤ (Finset.range k).card • (k * (b * 255)) := Finset.sum_le_card_nsmul _ _ _ fun i _ => hrow i
    _ = k * (k * (b * 255)) := by rw [Finset.card_range, nsmul_eq_mul]

/-- A window of equal samples is weighed by the sum of the numerators. -/
theorem weightedSum_const (k : Nat) (n : Nat → Nat → Int) (a : Nat) :
    weightedSum k n (fun _ _ => a) = a * weightedSum k n (fun _ _ => 1) := by
  simp only [weightedSum_eq_sum, Finset.mul_sum, Nat.cast_one, mul_one]
  exact Finset.sum_congr rfl fun i _ => Finset.sum_congr rfl fun j _ => mul_comm _ _

/-- A kernel that is 1 at one index and 0 elsewhere picks the sample there. -/
theorem weightedSum_single {k r : Nat} (hr : r < k) (w : Nat → Nat → Nat) :
    weightedSum k (fun i j => if i = r ∧ j = r then 1 else 0) w = w r r := by
  simp [weightedSum_eq_sum, ite_and, Finset.sum_ite_eq', hr]

/-! ### Samples and windows -/

theorem pix_le (m : Memory) (b : Buffer) (y x c : Nat) : pix m b y x c ≤ 255 :=
  Nat.le_of_lt_succ (Memory.read m (b.addr y x c)).isLt

theorem sample_le (m : Memory) (b : Buffer) (bp : BoundaryPolicy) (yy xx : Int) (c : Nat) :
    sample m b bp yy xx c ≤ 255 := by
  cases bp with
  | zeroFill =>
    rw [sample_zeroFill]
    split
    · exact pix_le m b _ _ c
    · exact Nat.zero_le _
  | replicate => exact pix_le m b _ _ c
  | reflect => exact pix_le m b _ _ c

/-- The centre of a window is the pixel itself, under every policy (41_window_engine.md R156). -/
theorem win_centre (m : Memory) {b : Buffer} (bp : BoundaryPolicy) (r : Nat) {y x : Nat} (c : Nat) (hy : y < b.h)
    (hx : x < b.w) : win m b bp r y x c r r = pix m b y x c := by
  have hinside : b.inside y x = true := (b.inside_iff y x).2 (by omega)
  rw [win, add_sub_cancel_right, add_sub_cancel_right, sample_of_inside m c bp hinside, Int.toNat_natCast,
    Int.toNat_natCast]

/-- Where a channel is constant, so is every window of it under replicate and reflect (41_window_engine.md R156). -/
theorem win_of_constant {m : Memory} {b : Buffer} {bp : BoundaryPolicy} {c v : Nat} (hbp : bp ≠ .zeroFill)
    (hh : 0 < b.h) (hw : 0 < b.w) (hpix : ∀ y x, y < b.h → x < b.w → pix m b y x c = v) (r y x : Nat) :
    win m b bp r y x c = fun _ _ => v := by
  funext i j
  obtain ⟨y', x', hy', hx', hsample⟩ :=
    sample_eq_pix_of_ne_zeroFill m c hbp ((y : Int) + i - r) ((x : Int) + j - r) hh hw
  exact hsample.trans (hpix y' x' hy' hx')

/-! ### The accumulator -/

/-- Settles O51: at most 49 terms, each at most 32768 * 255 in size. -/
theorem accumulatorNeverOverflows : Obligations.AccumulatorNeverOverflows := by
  unfold Obligations.AccumulatorNeverOverflows
  intro s bp ksel neg k y x c hk
  have hbound : |convAcc s bp ksel neg k y x c| ≤ k * (k * (32768 * 255)) :=
    abs_weightedSum_le (abs_numerator_le s ksel neg k) fun i j => sample_le s.pmem s.source0 bp _ _ c
  have hside : (k : Int) * k ≤ 7 * 7 := by exact_mod_cast Nat.mul_le_mul hk hk
  refine ⟨?_, by norm_num⟩
  linarith

/-! ### What CONV stores -/

/-- Past its checks CONV stores the rounded, clipped accumulator (42_linear_filter.md R171). -/
theorem computes_convOut {s : State} {bp : BoundaryPolicy} {ksel : KernelSel} {neg : Bool} {k : Nat}
    (hparams : ParamsPass (.conv bp ksel neg k) s) (hready : UnaryReady s) :
    Computes (.conv bp ksel neg k) s (convOut s bp ksel neg k) :=
  computes_of_unaryReady rfl (firstFailure_eq_none.1 ((firstFailure_convChecks_eq_none_iff bp neg).2 hparams)) hready
    fun _ _ _ => clip_le _

/-- Settles O28: the accumulator is the sum over the window. -/
theorem convStoresTheRoundedWeightedSum : Obligations.ConvStoresTheRoundedWeightedSum := by
  unfold Obligations.ConvStoresTheRoundedWeightedSum
  intro s bp ksel neg k hparams hready
  refine (computes_convOut hparams hready).congr fun y x c _ _ _ => ?_
  rw [convOut, convAcc, weightedSum_eq_sum]

/-- An accumulator that is an intensity times the divisor stores that intensity. -/
theorem convOut_of_convAcc {s : State} {bp : BoundaryPolicy} {ksel : KernelSel} {neg : Bool} {k y x c v : Nat}
    (hacc : convAcc s bp ksel neg k y x c = v * divisor s ksel k) (hd : 0 < divisor s ksel k) (hv : v ≤ 255) :
    convOut s bp ksel neg k y x c = v := by
  rw [convOut, hacc, rneDiv_mul_self (v : Int) (by exact_mod_cast hd), clip_of_nat v hv]

/-- Without NEG a ROM kernel weighs by its entries of KROM (42_linear_filter.md R174). -/
theorem weightedSum_numerator_rom (s : State) {ksel : KernelSel} (h : ksel ≠ .kram) (k : Nat) (w : Nat → Nat → Nat) :
    weightedSum k (numerator s ksel false k) w =
      weightedSum k (fun i j => kromValue (romBase ksel k + i * k + j)) w :=
  weightedSum_congr w fun i j _ _ => baseNumerator_rom s k i j h

/-- The identity kernel is 1 at its centre and 0 elsewhere, over 1 (44_kernel_rom.md R204). -/
theorem ident_isCentreOverOne : ∀ k ∈ [1, 3, 5, 7], kromDivValue (romDivIndex .ident k) = 1 ∧
    ∀ i < k, ∀ j < k, kromValue (romBase .ident k + i * k + j) =
      if i = (k - 1) / 2 ∧ j = (k - 1) / 2 then 1 else 0 := by
  decide +kernel

/-- The numerators of the four normalised families sum to their divisor, which is positive (44_kernel_rom.md R212). -/
theorem normalised_sumsToDivisor : ∀ ksel ∈ [KernelSel.ident, .mean, .gauss, .sharpen], ∀ k ∈ [1, 3, 5, 7],
    ksel ≠ .kram ∧ isSobelTable ksel = false ∧ 0 < kromDivValue (romDivIndex ksel k) ∧
      weightedSum k (fun i j => kromValue (romBase ksel k + i * k + j)) (fun _ _ => 1) =
        kromDivValue (romDivIndex ksel k) := by
  decide +kernel

section
variable {s : State} {ksel : KernelSel} {k : Nat}

theorem side_mem (h : k = 1 ∨ k = 3 ∨ k = 5 ∨ k = 7) : k ∈ [1, 3, 5, 7] := by
  simpa using h

/-- A ROM family has every side (42_linear_filter.md R173). -/
theorem paramsPass_romFamily (hk : k = 1 ∨ k = 3 ∨ k = 5 ∨ k = 7) (hrom : ksel ≠ .kram)
    (hsobel : isSobelTable ksel = false) (bp : BoundaryPolicy) (neg : Bool) : ParamsPass (.conv bp ksel neg k) s :=
  ⟨hk, fun h => absurd (hsobel.symm.trans h) (by decide), fun h => absurd h hrom⟩

end

/-- Settles O53: the sum is the centre of the window, over 1. -/
theorem identityConvolutionCopiesTheSource : Obligations.IdentityConvolutionCopiesTheSource := by
  unfold Obligations.IdentityConvolutionCopiesTheSource
  intro s bp k hk hready
  obtain ⟨hdiv, hkernel⟩ := ident_isCentreOverOne k (side_mem hk)
  have hdivisor : divisor s .ident k = 1 := (divisor_rom s k (by decide)).trans hdiv
  refine (computes_convOut (paramsPass_romFamily hk (by decide) rfl bp false) hready).congr fun y x c hy hx _ => ?_
  have hacc : convAcc s bp .ident false k y x c = s.pix0 y x c := by
    rw [convAcc, weightedSum_numerator_rom s (by decide),
      weightedSum_congr _ fun i j hi hj => hkernel i hi j hj, weightedSum_single (by omega),
      win_centre s.pmem bp _ c hy hx, State.pix0]
  exact convOut_of_convAcc (by rw [hacc, hdivisor, Nat.cast_one, mul_one]) (by omega) (pix_le _ _ _ _ _)

/-- Settles O55: the window is constant and the numerators sum to the divisor. -/
theorem normalisedKernelsKeepConstants : Obligations.NormalisedKernelsKeepConstants := by
  unfold Obligations.NormalisedKernelsKeepConstants
  intro s bp ksel k v hbp hksel hk hready hconst
  obtain ⟨hrom, hsobel, hpos, hsum⟩ := normalised_sumsToDivisor ksel hksel k (side_mem hk)
  have hdivisor : divisor s ksel k = kromDivValue (romDivIndex ksel k) := divisor_rom s k hrom
  refine (computes_convOut (paramsPass_romFamily hk hrom hsobel bp false) hready).congr fun y x c hy hx hc => ?_
  have hwin : win s.pmem s.source0 bp ((k - 1) / 2) y x c = fun _ _ => v c :=
    win_of_constant hbp (Nat.zero_lt_of_lt hy) (Nat.zero_lt_of_lt hx) (fun y' x' hy' hx' => hconst y' x' c hy' hx' hc)
      _ y x
  have hacc : convAcc s bp ksel false k y x c = v c * divisor s ksel k := by
    rw [convAcc, hwin, weightedSum_const, weightedSum_numerator_rom s hrom, hsum, hdivisor]
  have hv : v c ≤ 255 := (hconst y x c hy hx hc).symm.trans_le (pix_le _ _ _ _ _)
  exact convOut_of_convAcc hacc (hpos.trans_eq hdivisor.symm) hv

end Sys2Proof.Machine
end

section
/-! SUPPORT. Faults of the commands that read source 0 alone: their parameters come first, then the shape and the addresses
(60_exceptions.md R292 groups 2 to 4). -/

namespace Sys2Proof.Machine

section
variable {i : Instr} {s : State} {params : List (Bool × Cause)} {d : Buffer} {out : Nat → Nat → Nat → Nat} {c : Cause}

theorem faults_unary_iff (h : commandResult i s = checked (params ++ s.unaryChecks) (.output d out)) :
    Faults i s c ↔ (firstFailure params).or (firstFailure s.unaryChecks) = some c := by
  rw [faults_iff, h, checked_output_eq_fault_iff, firstFailure_append]

/-- A parameter that fails ends the command. -/
theorem faults_of_failing_params (h : commandResult i s = checked (params ++ s.unaryChecks) (.output d out))
    (hparams : firstFailure params = some c) : Faults i s c := by
  rw [faults_unary_iff h, hparams, Option.some_or]

/-- Past the parameters only a shape or an address faults. -/
theorem Faults.cause_of_passing_params (hfault : Faults i s c)
    (h : commandResult i s = checked (params ++ s.unaryChecks) (.output d out))
    (hparams : firstFailure params = none) : c = .invalidShape ∨ c = .addressRange ∨ c = .bufferOverlap := by
  rw [faults_unary_iff h, hparams, Option.none_or] at hfault
  exact firstFailure_unaryChecks hfault

end

end Sys2Proof.Machine
end

section
/-! SUPPORT. MEDIAN (43_median.md): the rank of the median in its list (R190, R196), the parameter checks (R192) and what
the command stores (R191). -/

namespace Sys2Proof.Machine

/-! ### The sorter -/

theorem insertAscending_eq_orderedInsert (v : Nat) (l : List Nat) :
    insertAscending v l = l.orderedInsert (· ≤ ·) v := by
  induction l with
  | nil => rfl
  | cons x xs ih => rw [insertAscending, ih, List.orderedInsert_cons]

theorem sortAscending_eq_insertionSort (l : List Nat) : sortAscending l = l.insertionSort (· ≤ ·) := by
  induction l with
  | nil => rfl
  | cons x xs ih => rw [sortAscending, ih, insertAscending_eq_orderedInsert, List.insertionSort_cons]

theorem sortAscending_perm (l : List Nat) : (sortAscending l).Perm l := by
  rw [sortAscending_eq_insertionSort]
  exact List.perm_insertionSort _ l

theorem sortAscending_sorted (l : List Nat) : (sortAscending l).SortedLE := by
  rw [sortAscending_eq_insertionSort]
  exact List.sortedLE_insertionSort

/-! ### The rank of an element of a sorted list -/

section
variable {l : List Nat} {m : Nat}

/-- The elements from position `m` on are not below the one there. -/
theorem countP_lt_getElem_le (hsorted : l.SortedLE) (hm : m < l.length) :
    l.countP (fun v => decide (v < l[m])) ≤ m := by
  have hdrop : (l.drop m).countP (fun v => decide (v < l[m])) = 0 := by
    refine List.countP_eq_zero.2 fun v hv => ?_
    obtain ⟨j, hj, rfl⟩ := List.mem_drop_iff_getElem.1 hv
    simpa using hsorted.getElem_le_getElem_of_le (Nat.le_add_right m j)
  calc l.countP (fun v => decide (v < l[m]))
      = (l.take m).countP (fun v => decide (v < l[m])) + (l.drop m).countP (fun v => decide (v < l[m])) := by
        rw [← List.countP_append, List.take_append_drop]
    _ ≤ (l.take m).length := by
        rw [hdrop, Nat.add_zero]
        exact List.countP_le_length
    _ ≤ m := List.length_take_le m l

/-- The elements up to position `m` are not above the one there. -/
theorem lt_countP_le_getElem (hsorted : l.SortedLE) (hm : m < l.length) :
    m < l.countP (fun v => decide (v ≤ l[m])) := by
  have htake : (l.take (m + 1)).countP (fun v => decide (v ≤ l[m])) = (l.take (m + 1)).length := by
    refine List.countP_eq_length.2 fun v hv => ?_
    obtain ⟨j, hj, rfl⟩ := List.mem_take_iff_getElem.1 hv
    exact decide_eq_true (hsorted.getElem_le_getElem_of_le (by omega))
  calc m < (l.take (m + 1)).length := by rw [List.length_take]; omega
    _ = (l.take (m + 1)).countP (fun v => decide (v ≤ l[m])) := htake.symm
    _ ≤ l.countP (fun v => decide (v ≤ l[m])) := (List.take_sublist _ l).countP_le

end

/-- The median stands in the sorted list at the lower middle (43_median.md R190). -/
theorem exists_median_eq_getElem {l : List Nat} (hl : l ≠ []) :
    ∃ hm : (l.length - 1) / 2 < (sortAscending l).length, median l = (sortAscending l)[(l.length - 1) / 2] := by
  have hpos := List.length_pos_of_ne_nil hl
  have hm : (l.length - 1) / 2 < (sortAscending l).length := by
    rw [(sortAscending_perm l).length_eq]
    omega
  exact ⟨hm, List.getD_eq_getElem _ _ hm⟩

/-- Settles O47: the counts are those of the sorted list, where the median has the position of its rank. -/
theorem medianIsTheLowerMiddle : Obligations.MedianIsTheLowerMiddle := by
  unfold Obligations.MedianIsTheLowerMiddle
  intro l hl
  obtain ⟨hm, hmedian⟩ := exists_median_eq_getElem hl
  have hperm := sortAscending_perm l
  have hsorted := sortAscending_sorted l
  rw [hmedian, ← hperm.mem_iff, ← hperm.countP_eq, ← hperm.countP_eq]
  exact ⟨List.getElem_mem hm, countP_lt_getElem_le hsorted hm, lt_countP_le_getElem hsorted hm⟩

/-! ### The parameter checks -/

/-- The checks of 43_median.md R192, in their order. -/
theorem firstFailure_medianChecks (r : Int) : firstFailure (medianChecks r) =
    if r < 0 then some .invalidRadius else if 3 < r then some .unsupportedSize else none := by
  simp [medianChecks, firstFailure, Config.maxRadius]

/-- Settles O36, a clause for each branch of the checks. -/
theorem medianParameterFaults : Obligations.MedianParameterFaults := by
  unfold Obligations.MedianParameterFaults
  intro s bp r
  have hresult : commandResult (.median bp r) s =
    checked (medianChecks r ++ s.unaryChecks) (.output s.dest (medianOut s bp r.toNat)) := rfl
  have hchecks := firstFailure_medianChecks r
  refine ⟨fun hneg => ?negative, fun hbig => ?big, fun h0 h3 => ?pass⟩
  case negative =>
    rw [if_pos hneg] at hchecks
    exact faults_of_failing_params hresult hchecks
  case big =>
    rw [if_neg (by omega), if_pos hbig] at hchecks
    exact faults_of_failing_params hresult hchecks
  case pass =>
    rw [if_neg (by omega), if_neg (by omega)] at hchecks
    constructor <;> intro hfault <;> simpa using hfault.cause_of_passing_params hresult hchecks

/-! ### What MEDIAN stores -/

theorem mem_windowList_iff {k : Nat} {w : Nat → Nat → Nat} {v : Nat} :
    v ∈ windowList k w ↔ ∃ i < k, ∃ j < k, w i j = v := by
  simp [windowList]

/-- The median of a window of intensities is an intensity, being one of its samples (43_median.md R190). -/
theorem median_windowList_le {k : Nat} {w : Nat → Nat → Nat} (hk : 0 < k) (hw : ∀ i j, w i j ≤ 255) :
    median (windowList k w) ≤ 255 := by
  have hne : windowList k w ≠ [] := List.ne_nil_of_mem (mem_windowList_iff.2 ⟨0, hk, 0, hk, rfl⟩)
  obtain ⟨hmem, -⟩ := medianIsTheLowerMiddle _ hne
  obtain ⟨i, -, j, -, hij⟩ := mem_windowList_iff.1 hmem
  exact hij ▸ hw i j

/-- `clip` leaves the median of a window as it is (43_median.md R191). -/
theorem medianOut_eq (s : State) (bp : BoundaryPolicy) (r y x c : Nat) :
    medianOut s bp r y x c = median (windowList (2 * r + 1) (win s.pmem s.source0 bp r y x c)) :=
  clip_of_nat _ (median_windowList_le (Nat.succ_pos _) fun _ _ => sample_le s.pmem s.source0 bp _ _ c)

/-- Settles O29: past its checks MEDIAN stores the median, which needs no clip. -/
theorem medianStoresTheWindowMedian : Obligations.MedianStoresTheWindowMedian := by
  unfold Obligations.MedianStoresTheWindowMedian
  intro s bp r hr hready
  have hparams : firstFailure (medianChecks r) = none := by
    rw [firstFailure_medianChecks, if_neg (by omega), if_neg (by omega)]
  have hcomputes : Computes (.median bp r) s (medianOut s bp r) :=
    computes_of_unaryReady rfl (firstFailure_eq_none.1 hparams) hready fun _ _ _ => clip_le _
  exact hcomputes.congr fun y x c _ _ _ => medianOut_eq s bp r y x c

end Sys2Proof.Machine
end

section
/-! SUPPORT. The kernels of KROM (44_kernel_rom.md): a ROM kernel does not depend on the state, so what it holds is a fact of
the tables of R202 and R213, stated through the lookup of R203. -/

namespace Sys2Proof.Machine

/-! ### A ROM kernel as the table holds it -/

/-- The rows of a ROM kernel of side `k` as the lookup of 44_kernel_rom.md R203 finds them in `KROM`. -/
def romRows (ksel : KernelSel) (k : Nat) : List (List Int) :=
  (List.range k).map fun i => (List.range k).map fun j => kromValue (romBase ksel k + i * k + j)

section
variable (s : State)

/-- Without NEG a numerator of a ROM kernel is its entry of KROM (42_linear_filter.md R174). -/
theorem numerator_rom {ksel : KernelSel} (h : ksel ≠ .kram) (k i j : Nat) :
    numerator s ksel false k i j = kromValue (romBase ksel k + i * k + j) := baseNumerator_rom s k i j h

theorem numerator_neg (ksel : KernelSel) (k i j : Nat) :
    numerator s ksel true k i j = -(numerator s ksel false k i j) := rfl

theorem kernelRows_rom {ksel : KernelSel} (h : ksel ≠ .kram) (k : Nat) : kernelRows s ksel k = romRows ksel k := by
  simp only [kernelRows, romRows, numerator_rom s h]

end

/-! ### The families -/

/-- The mean kernel is 1 everywhere, over `k * k` (44_kernel_rom.md R205). -/
theorem mean_isOnesOverSquare : ∀ k ∈ [1, 3, 5, 7], kromDivValue (romDivIndex .mean k) = k * k ∧
    ∀ i < k, ∀ j < k, kromValue (romBase .mean k + i * k + j) = 1 := by
  decide +kernel

/-- The sharpening kernel is `2 * k * k - 1` at its centre and -1 elsewhere, over `k * k` (44_kernel_rom.md R208). -/
theorem sharpen_isPeakedOverSquare : ∀ k ∈ [1, 3, 5, 7], kromDivValue (romDivIndex .sharpen k) = k * k ∧
    ∀ i < k, ∀ j < k, kromValue (romBase .sharpen k + i * k + j) =
      if i = (k - 1) / 2 ∧ j = (k - 1) / 2 then 2 * (k : Int) * k - 1 else -1 := by
  decide +kernel

/-- A Sobel table is over 1, sums to 0 and is the negation of its 180-degree rotation (44_kernel_rom.md R211, R212). -/
theorem sobelTable_isAntisymmetric : ∀ ksel ∈ [KernelSel.sobel0, .sobel45, .sobel90, .sobel135],
    ksel ≠ .kram ∧ kromDivValue (romDivIndex ksel 3) = 1 ∧
      weightedSum 3 (fun i j => kromValue (romBase ksel 3 + i * 3 + j)) (fun _ _ => 1) = 0 ∧
      ∀ i < 3, ∀ j < 3, kromValue (romBase ksel 3 + (2 - i) * 3 + (2 - j)) =
        -kromValue (romBase ksel 3 + i * 3 + j) := by
  decide +kernel

/-- Settles O48: each numerator and divisor is the entry the lookup finds, and the entries are those of the tables. -/
theorem kernelRomHoldsTheFamilies : Obligations.KernelRomHoldsTheFamilies := by
  unfold Obligations.KernelRomHoldsTheFamilies
  intro s k hk
  obtain ⟨hidentDiv, hident⟩ := ident_isCentreOverOne k hk
  obtain ⟨hmeanDiv, hmean⟩ := mean_isOnesOverSquare k hk
  obtain ⟨hsharpenDiv, hsharpen⟩ := sharpen_isPeakedOverSquare k hk
  refine ⟨(divisor_rom s k (by decide)).trans hidentDiv, (divisor_rom s k (by decide)).trans hmeanDiv,
    (divisor_rom s k (by decide)).trans hsharpenDiv, fun i hi j hj => ?families, ?gaussSum, fun ksel hksel => ?sobel,
    ?printed⟩
  case families =>
    rw [List.mem_range] at hi hj
    exact ⟨(numerator_rom s (by decide) k i j).trans (hident i hi j hj),
      (numerator_rom s (by decide) k i j).trans (hmean i hi j hj),
      (numerator_rom s (by decide) k i j).trans (hsharpen i hi j hj)⟩
  case gaussSum =>
    obtain ⟨hrom, -, -, hsum⟩ := normalised_sumsToDivisor .gauss (by decide) k hk
    rw [weightedSum_numerator_rom s hrom, hsum, divisor_rom s k hrom]
  case sobel =>
    obtain ⟨hrom, hdiv, hsum, hrotated⟩ := sobelTable_isAntisymmetric ksel hksel
    refine ⟨(divisor_rom s 3 hrom).trans hdiv, (weightedSum_numerator_rom s hrom 3 _).trans hsum,
      fun i hi j hj => ⟨?_, numerator_neg s ksel 3 i j⟩⟩
    rw [numerator_rom s hrom, numerator_rom s hrom]
    exact hrotated i (List.mem_range.1 hi) j (List.mem_range.1 hj)
  case printed =>
    simp (disch := decide) only [kernelRows_rom, divisor_rom]
    decide +kernel

end Sys2Proof.Machine
end

section
/-! SUPPORT. SOBEL (45_sobel.md): the bounds of its intermediate values (R236), the parameter check (R232), what the command
stores (R231) and its value on a constant channel (R237). -/

namespace Sys2Proof.Machine

open scoped BigOperators

/-! ### The signed parts of a kernel -/

/-- A numerator times an intensity lies between 255 times its negative and 255 times its positive part. -/
theorem mul_intensity_bounds (n : Int) {w : Nat} (hw : w ≤ 255) :
    min 0 n * 255 ≤ n * w ∧ n * w ≤ max 0 n * 255 := by
  have hsample : (w : Int) ≤ 255 := by exact_mod_cast hw
  obtain hn | hn := le_total 0 n
  · rw [min_eq_left hn, max_eq_right hn, zero_mul]
    exact ⟨mul_nonneg hn (Int.natCast_nonneg w), mul_le_mul_of_nonneg_left hsample hn⟩
  · rw [min_eq_right hn, max_eq_left hn, zero_mul]
    exact ⟨mul_le_mul_of_nonpos_left hsample hn, mul_nonpos_of_nonpos_of_nonneg hn (Int.natCast_nonneg w)⟩

/-- The sums of the negative and of the positive numerators bound the sum over a window of intensities. -/
theorem weightedSum_bounds (k : Nat) (n : Nat → Nat → Int) {w : Nat → Nat → Nat} (hw : ∀ i j, w i j ≤ 255) :
    (∑ i ∈ Finset.range k, ∑ j ∈ Finset.range k, min 0 (n i j)) * 255 ≤ weightedSum k n w ∧
      weightedSum k n w ≤ (∑ i ∈ Finset.range k, ∑ j ∈ Finset.range k, max 0 (n i j)) * 255 := by
  simp only [weightedSum_eq_sum, Finset.sum_mul]
  exact ⟨Finset.sum_le_sum fun i _ => Finset.sum_le_sum fun j _ => (mul_intensity_bounds (n i j) (hw i j)).1,
    Finset.sum_le_sum fun i _ => Finset.sum_le_sum fun j _ => (mul_intensity_bounds (n i j) (hw i j)).2⟩

/-- The plain sum of the numerators is that of their positive and their negative parts. -/
theorem weightedSum_one_eq_parts (k : Nat) (n : Nat → Nat → Int) : weightedSum k n (fun _ _ => 1) =
    (∑ i ∈ Finset.range k, ∑ j ∈ Finset.range k, max 0 (n i j)) +
      ∑ i ∈ Finset.range k, ∑ j ∈ Finset.range k, min 0 (n i j) := by
  simp only [weightedSum_eq_sum, ← Finset.sum_add_distrib, max_add_min, Nat.cast_one, mul_one, zero_add]

/-- The positive numerators of each Sobel table sum to 4, the negative ones to -4 (44_kernel_rom.md R212). -/
theorem sobelNumerator_parts : ∀ a < 4,
    (∑ i ∈ Finset.range 3, ∑ j ∈ Finset.range 3, max 0 (sobelNumerator a i j)) = 4 ∧
    (∑ i ∈ Finset.range 3, ∑ j ∈ Finset.range 3, min 0 (sobelNumerator a i j)) = -4 := by
  decide +kernel

/-! ### Responses, squares and the root (45_sobel.md R236) -/

section
variable (s : State) (bp : BoundaryPolicy) (angles : BitVec 4) {a : Nat} (y x c : Nat)

theorem sobelResponse_bounds (ha : a < 4) :
    -1020 ≤ sobelResponse s bp a y x c ∧ sobelResponse s bp a y x c ≤ 1020 := by
  obtain ⟨hpos, hneg⟩ := sobelNumerator_parts a ha
  obtain ⟨hlo, hhi⟩ := weightedSum_bounds 3 (sobelNumerator a) (w := win s.pmem s.source0 bp 1 y x c)
    fun i j => sample_le s.pmem s.source0 bp _ _ c
  rw [hneg] at hlo
  rw [hpos] at hhi
  exact ⟨hlo, hhi⟩

theorem sobelSquares_eq_sum : sobelSquares s bp angles y x c =
    ∑ a ∈ Finset.range 4, if angles.getLsbD a then sobelResponse s bp a y x c ^ 2 else 0 := by
  simp only [sq]
  rfl

/-- Four squares of at most 1020 * 1020 each. -/
theorem sobelSquares_le : sobelSquares s bp angles y x c ≤ 4161600 := by
  have hterm : ∀ a ∈ Finset.range 4,
      (if angles.getLsbD a then sobelResponse s bp a y x c ^ 2 else 0) ≤ (1020 : Int) ^ 2 := fun a ha => by
    obtain ⟨hlo, hhi⟩ := sobelResponse_bounds s bp y x c (Finset.mem_range.1 ha)
    split
    · exact sq_le_sq' hlo hhi
    · norm_num
  calc sobelSquares s bp angles y x c
      ≤ (Finset.range 4).card • (1020 : Int) ^ 2 := by
        rw [sobelSquares_eq_sum]
        exact Finset.sum_le_card_nsmul _ _ _ hterm
    _ = 4161600 := by norm_num

end

/-- The rounded root of a number of at most `b * b` is at most `b`: it does not round up past a whole root
(40_common_execute.md R133). -/
theorem rneSqrt_le {n b : Nat} (h : n ≤ b * b) : rneSqrt n ≤ b := by
  obtain hzero | hlower := (rneSqrt_spec n).2
  · omega
  · by_contra hlt
    nlinarith

/-- Settles O52: the bounds follow from the signed sums of the tables. -/
theorem sobelIntermediatesFit : Obligations.SobelIntermediatesFit := by
  unfold Obligations.SobelIntermediatesFit
  refine ⟨fun s bp angles a y x c ha => ?_, sobelNumerator_parts⟩
  obtain ⟨hlo, hhi⟩ := sobelResponse_bounds s bp y x c ha
  have hsquares := sobelSquares_le s bp angles y x c
  exact ⟨hlo, hhi, hsquares, by norm_num, rneSqrt_le (by omega)⟩

/-! ### The parameter check -/

/-- The check of 45_sobel.md R232. -/
theorem firstFailure_sobelChecks (angles : BitVec 4) : firstFailure (sobelChecks angles) =
    if angles = 0#4 then some .emptyAngleSet else none := by
  simp [sobelChecks, firstFailure]

/-- Settles O37, a clause for each branch of the check. -/
theorem sobelNeedsAnAngle : Obligations.SobelNeedsAnAngle := by
  unfold Obligations.SobelNeedsAnAngle
  intro s bp angles
  have hresult : commandResult (.sobel bp angles) s =
    checked (sobelChecks angles ++ s.unaryChecks) (.output s.dest (sobelOut s bp angles)) := rfl
  have hchecks := firstFailure_sobelChecks angles
  refine ⟨fun hempty => ?empty, fun hne hfault => ?nonempty⟩
  case empty =>
    rw [if_pos hempty] at hchecks
    exact faults_of_failing_params hresult hchecks
  case nonempty =>
    rw [if_neg hne] at hchecks
    simpa using hfault.cause_of_passing_params hresult hchecks

/-! ### What SOBEL stores -/

section
variable {s : State} {bp : BoundaryPolicy} {angles : BitVec 4}

/-- Past its checks SOBEL stores the clipped, rounded root (45_sobel.md R231). -/
theorem computes_sobelOut (hangles : angles ≠ 0#4) (hready : UnaryReady s) :
    Computes (.sobel bp angles) s (sobelOut s bp angles) := by
  have hparams : firstFailure (sobelChecks angles) = none := by
    rw [firstFailure_sobelChecks, if_neg hangles]
  exact computes_of_unaryReady rfl (firstFailure_eq_none.1 hparams) hready fun _ _ _ => clip_le _

/-- Where every response is 0, so is the output. -/
theorem sobelOut_of_response_eq_zero {y x c : Nat} (h : ∀ a < 4, sobelResponse s bp a y x c = 0) :
    sobelOut s bp angles y x c = 0 := by
  have hsquares : sobelSquares s bp angles y x c = 0 := by
    rw [sobelSquares_eq_sum]
    exact Finset.sum_eq_zero fun a ha => by simp [h a (Finset.mem_range.1 ha)]
  have hroot : rneSqrt 0 = 0 := Nat.le_zero.1 (rneSqrt_le le_rfl)
  rw [sobelOut, hsquares, Int.toNat_zero, hroot]
  exact clip_of_nat 0 (Nat.zero_le _)

/-- A constant window has no gradient: the numerators of a Sobel table sum to 0 (45_sobel.md R237). -/
theorem sobelResponse_of_constant {a y x c v : Nat} (ha : a < 4)
    (hwin : win s.pmem s.source0 bp 1 y x c = fun _ _ => v) : sobelResponse s bp a y x c = 0 := by
  obtain ⟨hpos, hneg⟩ := sobelNumerator_parts a ha
  rw [sobelResponse, hwin, weightedSum_const, weightedSum_one_eq_parts, hpos, hneg, add_neg_cancel, mul_zero]

end

/-- Settles O30: the squares are those of the sums over the window. -/
theorem sobelStoresTheGradientMagnitude : Obligations.SobelStoresTheGradientMagnitude := by
  unfold Obligations.SobelStoresTheGradientMagnitude
  intro s bp angles hangles hready
  refine (computes_sobelOut hangles hready).congr fun y x c _ _ _ => ?_
  simp only [sobelOut, sobelSquares_eq_sum, sobelResponse, weightedSum_eq_sum, sobelNumerator]

/-- Settles O54: every window is constant, so every response is 0. -/
theorem sobelOfConstantWindowsIsZero : Obligations.SobelOfConstantWindowsIsZero := by
  unfold Obligations.SobelOfConstantWindowsIsZero
  intro s bp angles v hbp hangles hready hconst
  refine (computes_sobelOut hangles hready).congr fun y x c hy hx hc => ?_
  have hwin : win s.pmem s.source0 bp 1 y x c = fun _ _ => v c :=
    win_of_constant hbp (Nat.zero_lt_of_lt hy) (Nat.zero_lt_of_lt hx) (fun y' x' hy' hx' => hconst y' x' c hy' hx' hc)
      1 y x
  exact sobelOut_of_response_eq_zero fun a ha => sobelResponse_of_constant ha hwin

end Sys2Proof.Machine
end

section
/-! SUPPORT. The saturating arithmetic of two buffers and of a buffer with the scalar (46_arith.md R250 to R260): each
element against plain arithmetic, and the commands assembled from them. -/

namespace Sys2Proof.Machine

/-! ### One element -/

/-- `clip` of a natural number saturates at 255 (40_common_execute.md R130). -/
theorem clip_natCast (n : Nat) : clip (n : Int) = min 255 n := by
  have hclip := clip_eq (n : Int)
  omega

theorem clip_of_nonpos {v : Int} (h : v ≤ 0) : clip v = 0 := by
  have hclip := clip_eq v
  omega

theorem addPixel_eq (a b : Nat) : addPixel a b = min 255 (a + b) := clip_natCast (a + b)

theorem mulPixel_eq (a b : Nat) : mulPixel a b = min 255 (a * b) := clip_natCast (a * b)

/-- The difference of an intensity needs no clip above, and below it truncates as subtraction on `Nat` does. -/
theorem subPixel_eq {a : Nat} (ha : a ≤ 255) (b : Nat) : subPixel a b = a - b := by
  have hclip := clip_eq ((a : Int) - b)
  rw [subPixel]
  omega

/-- A quotient of an intensity by a positive integer is an intensity, so it needs no clip (46_arith.md R259). -/
theorem divPixel_eq {a : Nat} (ha : a ≤ 255) (b : Nat) :
    divPixel a b = if b = 0 then 0 else (rneDiv (a : Int) (b : Int)).toNat := by
  unfold divPixel
  split
  · rfl
  · have hb : (0 : Int) < b := by omega
    have hlo : 0 ≤ rneDiv (a : Int) b := le_rneDiv hb (by omega)
    have hhi : rneDiv (a : Int) b ≤ 255 := rneDiv_le hb (by omega)
    have hclip := clip_eq (rneDiv (a : Int) b)
    omega

/-- A quotient of a natural number by a negative integer is not positive. -/
theorem rneDiv_nonpos_of_neg (n : Nat) {d : Int} (hd : d < 0) : rneDiv (n : Int) d ≤ 0 := by
  rw [rneDiv_of_neg _ hd, ← rneDiv_of_pos _ (neg_pos.2 hd)]
  exact rneDiv_le (neg_pos.2 hd) (by omega)

/-- DIVS is 0 for every scalar that is not positive: by its convention at 0, by the clip below (46_arith.md R260). -/
theorem divsPixel_eq (S : Int) (a : Nat) :
    divsPixel S a = if S ≤ 0 then 0 else clip (rneDiv (256 * (a : Int)) S) := by
  unfold divsPixel
  obtain hneg | rfl | hpos := lt_trichotomy S 0
  · have hquotient : rneDiv (256 * (a : Int)) S ≤ 0 := by exact_mod_cast rneDiv_nonpos_of_neg (256 * a) hneg
    rw [if_neg hneg.ne, if_pos hneg.le, clip_of_nonpos hquotient]
  · rfl
  · rw [if_neg hpos.ne', if_neg hpos.not_ge]

/-! ### The commands -/

/-- A command with two sources, its operands in order, computes what stands behind its checks. -/
theorem computes_of_binaryReady {i : Instr} {s : State} {f : Nat → Nat → Nat}
    (h : commandResult i s = elementwise2 s f) (hready : BinaryReady s) (hf : ∀ a b, f a b ≤ 255) :
    Computes i s fun y x c => f (s.pix0 y x c) (s.pix1 y x c) :=
  computes_of_result (h.trans (checked_of_pass ((binaryReady_iff s).1 hready))) fun _ _ _ => hf _ _

/-- A form with the scalar, its operands in order, computes what stands behind its checks. -/
theorem computes_scalarForm {i : Instr} {s : State} {f : Nat → Nat}
    (h : commandResult i s = elementwise1 s [] f) (hready : UnaryReady s) (hf : ∀ a, f a ≤ 255) :
    Computes i s fun y x c => f (s.pix0 y x c) :=
  computes_of_unaryReady h (List.forall_mem_nil _) hready fun _ _ _ => hf _

theorem State.pix0_le (s : State) (y x c : Nat) : s.pix0 y x c ≤ 255 := pix_le s.pmem s.source0 y x c

/-- A value that is 0 by convention in one case and clipped in the other is an intensity. -/
theorem zero_or_clip_le (P : Prop) [Decidable P] (v : Int) : (if P then 0 else clip v) ≤ 255 := by
  split
  · exact Nat.zero_le _
  · exact clip_le v

/-- Settles O31: each form computes its pixel function, which is the plain arithmetic on intensities. -/
theorem bufferArithmeticSaturates : Obligations.BufferArithmeticSaturates := by
  unfold Obligations.BufferArithmeticSaturates
  intro s hready
  refine ⟨?add, ?sub, ?mul, ?div⟩
  case add =>
    exact (computes_of_binaryReady (f := addPixel) rfl hready fun _ _ => clip_le _).congr fun _ _ _ _ _ _ =>
      addPixel_eq _ _
  case sub =>
    exact (computes_of_binaryReady (f := subPixel) rfl hready fun _ _ => clip_le _).congr fun y x c _ _ _ =>
      subPixel_eq (s.pix0_le y x c) _
  case mul =>
    exact (computes_of_binaryReady (f := mulPixel) rfl hready fun _ _ => clip_le _).congr fun _ _ _ _ _ _ =>
      mulPixel_eq _ _
  case div =>
    exact (computes_of_binaryReady (f := divPixel) rfl hready fun _ _ => zero_or_clip_le _ _).congr fun y x c _ _ _ =>
      divPixel_eq (s.pix0_le y x c) _

/-- Settles O32: three forms store their pixel function as it stands; DIVS needs the sign of the scalar. -/
theorem scalarArithmeticRoundsThenSaturates : Obligations.ScalarArithmeticRoundsThenSaturates := by
  unfold Obligations.ScalarArithmeticRoundsThenSaturates
  intro s hready
  refine ⟨?adds, ?subs, ?muls, ?divs⟩
  case adds => exact computes_scalarForm (f := addsPixel s.scalarValue) rfl hready fun _ => clip_le _
  case subs => exact computes_scalarForm (f := subsPixel s.scalarValue) rfl hready fun _ => clip_le _
  case muls => exact computes_scalarForm (f := mulsPixel s.scalarValue) rfl hready fun _ => clip_le _
  case divs =>
    have hcomputes := computes_scalarForm (i := .divs) (f := divsPixel s.scalarValue) rfl hready fun _ =>
      zero_or_clip_le _ _
    exact hcomputes.congr fun _ _ _ _ _ _ => divsPixel_eq _ _

end Sys2Proof.Machine
end

section
/-! SUPPORT. GAMMA (46_arith.md R267 to R270): `gamma_map` against the real power it rounds, its laws, the parameter
check and what the command stores. -/

namespace Sys2Proof.Machine

/-! ### The real power -/

/-- The real number `255*(p/255)^(G/256)` that `gamma_map` rounds (46_arith.md R268). -/
noncomputable def gammaPower (p G : Nat) : ℝ := 255 * ((p : ℝ) / 255) ^ ((G : ℝ) / 256)

theorem gammaPower_nonneg (p G : Nat) : 0 ≤ gammaPower p G := by
  unfold gammaPower
  positivity

/-- The power at black is black: the exponent is not 0. -/
theorem gammaPower_black {G : Nat} (hG : 1 ≤ G) : gammaPower 0 G = 0 := by
  have hexp : (G : ℝ) / 256 ≠ 0 := by positivity
  rw [gammaPower, Nat.cast_zero, zero_div, Real.zero_rpow hexp, mul_zero]

theorem gammaPower_white (G : Nat) : gammaPower 255 G = 255 := by
  norm_num [gammaPower]

theorem gammaPower_one (p : Nat) : gammaPower p 256 = p := by
  norm_num [gammaPower]
  ring

theorem gammaPower_mono_pixel {p q : Nat} (G : Nat) (h : p ≤ q) : gammaPower p G ≤ gammaPower q G := by
  unfold gammaPower
  gcongr

/-- A fraction of white falls as the exponent grows. -/
theorem gammaPower_anti_gamma {p G H : Nat} (hp : p ≤ 255) (h : G ≤ H) : gammaPower p H ≤ gammaPower p G := by
  have hfraction : (p : ℝ) / 255 ≤ 1 := (div_le_one (by norm_num)).2 (by exact_mod_cast hp)
  exact mul_le_mul_of_nonneg_left
    (Real.rpow_le_rpow_of_exponent_ge' (by positivity) hfraction (by positivity) (by gcongr)) (by norm_num)

/-- Raised to the power 256 the real number is rational. -/
theorem gammaPower_pow (p G : Nat) : (2 * gammaPower p G) ^ 256 * 255 ^ G = (p : ℝ) ^ G * 510 ^ 256 := by
  have hroot : (((p : ℝ) / 255) ^ ((G : ℝ) / 256)) ^ 256 = ((p : ℝ) / 255) ^ G := by
    rw [← Real.rpow_mul_natCast (by positivity), Nat.cast_ofNat, div_mul_cancel₀ _ (by norm_num), Real.rpow_natCast]
  calc (2 * gammaPower p G) ^ 256 * 255 ^ G
      = 510 ^ 256 * ((p : ℝ) / 255) ^ G * 255 ^ G := by
        rw [gammaPower, ← mul_assoc, mul_pow, hroot]
        norm_num
    _ = (p : ℝ) ^ G * 510 ^ 256 := by
        rw [mul_assoc, ← mul_pow, div_mul_cancel₀ _ (by norm_num), mul_comm]

/-- The comparison in integers that `gamma_map` counts is that of `m + 1/2` with the real power (46_arith.md R268). -/
theorem pow_lt_iff_lt_gammaPower (p G m : Nat) :
    (2 * m + 1) ^ 256 * 255 ^ G < p ^ G * 510 ^ 256 ↔ 2 * (m : ℝ) + 1 < 2 * gammaPower p G := by
  have hbase : 0 ≤ 2 * gammaPower p G := mul_nonneg (by norm_num) (gammaPower_nonneg p G)
  calc (2 * m + 1) ^ 256 * 255 ^ G < p ^ G * 510 ^ 256
      ↔ (2 * (m : ℝ) + 1) ^ 256 * 255 ^ G < (p : ℝ) ^ G * 510 ^ 256 := by exact_mod_cast Iff.rfl
    _ ↔ (2 * (m : ℝ) + 1) ^ 256 < (2 * gammaPower p G) ^ 256 := by
        rw [← gammaPower_pow, mul_lt_mul_iff_left₀ (by positivity)]
    _ ↔ 2 * (m : ℝ) + 1 < 2 * gammaPower p G := pow_lt_pow_iff_left₀ (by positivity) hbase (by norm_num)

/-- The real power is never half-way between two integers: an odd number to the power 256 is not a multiple of 2
(46_arith.md R268). -/
theorem gammaPower_ne_half (p G m : Nat) : 2 * gammaPower p G ≠ 2 * (m : ℝ) + 1 := by
  intro h
  have hpow := gammaPower_pow p G
  rw [h] at hpow
  have hnat : (2 * m + 1) ^ 256 * 255 ^ G = p ^ G * 510 ^ 256 := by exact_mod_cast hpow
  have hodd : Odd ((2 * m + 1) ^ 256 * 255 ^ G) := (odd_two_mul_add_one m).pow.mul (Odd.pow (by decide))
  have heven : Even (p ^ G * 510 ^ 256) := (Even.pow_of_ne_zero (by decide) (by decide)).mul_left _
  rw [hnat] at hodd
  exact Nat.not_even_iff_odd.2 hodd heven

/-! ### `gamma_map` -/

/-- Counting a property that passes down to smaller numbers counts up to where it ends. -/
theorem lt_count_iff {P : Nat → Prop} [DecidablePred P] (hdown : ∀ a b, a ≤ b → P b → P a) (m n : Nat) :
    m < Nat.count P n ↔ m < n ∧ P m := by
  constructor
  · intro hm
    have hmn : m < n := hm.trans_le (Nat.count_le ..)
    refine ⟨hmn, by_contra fun hP => ?_⟩
    obtain ⟨d, rfl⟩ := Nat.exists_eq_add_of_lt hmn
    have hrest : Nat.count (fun k => P (m + k)) (d + 1) = 0 :=
      Nat.count_iff_forall_not.2 fun k _ hk => hP (hdown m (m + k) (Nat.le_add_right m k) hk)
    rw [Nat.add_assoc, Nat.count_add, hrest, Nat.add_zero] at hm
    exact absurd (Nat.count_le (p := P) (n := m)) (Nat.not_le.2 hm)
  · rintro ⟨hmn, hP⟩
    have hall : Nat.count P (m + 1) = m + 1 :=
      Nat.count_iff_forall.2 fun k hk => hdown k m (Nat.le_of_lt_succ hk) hP
    exact Nat.succ_le_iff.1 (hall.symm.trans_le (Nat.count_monotone P hmn))

/-- What `gamma_map` exceeds: the `m` below 255 whose half-way point the real power exceeds (46_arith.md R268). -/
theorem lt_gammaMap_iff (p G m : Nat) : m < gammaMap p G ↔ m < 255 ∧ 2 * (m : ℝ) + 1 < 2 * gammaPower p G := by
  have hcount : gammaMap p G = Nat.count (fun m => (2 * m + 1) ^ 256 * 255 ^ G < p ^ G * 510 ^ 256) 255 :=
    List.countP_eq_length_filter.symm
  rw [hcount, lt_count_iff, pow_lt_iff_lt_gammaPower]
  intro a b hab hb
  exact lt_of_le_of_lt (by gcongr) hb

theorem gammaMap_le (p G : Nat) : gammaMap p G ≤ 255 :=
  Nat.le_of_not_lt fun h => absurd ((lt_gammaMap_iff p G 255).1 h).1 (lt_irrefl 255)

/-- A greater real power gives no smaller `gamma_map`. -/
theorem gammaMap_le_of_gammaPower_le {p q G H : Nat} (h : gammaPower p G ≤ gammaPower q H) :
    gammaMap p G ≤ gammaMap q H := by
  refine le_of_forall_lt fun m hm => ?_
  rw [lt_gammaMap_iff] at hm ⊢
  obtain ⟨hm255, hhalf⟩ := hm
  exact ⟨hm255, by linarith⟩

/-- Where the real power is an intensity, `gamma_map` is that intensity. -/
theorem gammaMap_of_gammaPower_eq {p G n : Nat} (h : gammaPower p G = n) (hn : n ≤ 255) : gammaMap p G = n := by
  refine eq_of_forall_lt_iff fun m => ?_
  rw [lt_gammaMap_iff, h]
  norm_cast
  omega

/-- Settles O50: each law is the law of the real power. -/
theorem gammaMapLaws : Obligations.GammaMapLaws := by
  unfold Obligations.GammaMapLaws
  refine ⟨fun G hG => ⟨?black, ?white⟩, fun p hp => ?one, fun p q G h => ?pixel, fun p G H hp h => ?gamma,
    gammaMap_le⟩
  case black => exact gammaMap_of_gammaPower_eq (by exact_mod_cast gammaPower_black hG) (Nat.zero_le _)
  case white => exact gammaMap_of_gammaPower_eq (by exact_mod_cast gammaPower_white G) le_rfl
  case one => exact gammaMap_of_gammaPower_eq (gammaPower_one p) hp
  case pixel => exact gammaMap_le_of_gammaPower_le (gammaPower_mono_pixel G h)
  case gamma => exact gammaMap_le_of_gammaPower_le (gammaPower_anti_gamma hp h)

theorem gammaPower_le {p : Nat} (hp : p ≤ 255) (G : Nat) : gammaPower p G ≤ 255 :=
  (gammaPower_mono_pixel G hp).trans_eq (gammaPower_white G)

/-- The real power exceeds the half-way point below `gamma_map`. -/
theorem gammaMap_sub_half_lt (p G : Nat) : (gammaMap p G : ℝ) - 1 / 2 < gammaPower p G := by
  cases hn : gammaMap p G with
  | zero =>
    have hnonneg := gammaPower_nonneg p G
    rw [Nat.cast_zero]
    linarith
  | succ n =>
    obtain ⟨-, hhalf⟩ := (lt_gammaMap_iff p G n).1 (by omega)
    rw [Nat.cast_succ]
    linarith

/-- The real power does not reach the half-way point above `gamma_map`: the count ends there, or white does. -/
theorem gammaPower_lt_gammaMap_add_half {p : Nat} (hp : p ≤ 255) (G : Nat) :
    gammaPower p G < gammaMap p G + 1 / 2 := by
  obtain hlt | hwhite := (gammaMap_le p G).lt_or_eq
  · have hle : 2 * gammaPower p G ≤ 2 * (gammaMap p G : ℝ) + 1 :=
      not_lt.1 fun h => lt_irrefl _ ((lt_gammaMap_iff p G _).2 ⟨hlt, h⟩)
    have hhalf := hle.lt_of_ne (gammaPower_ne_half p G _)
    linarith
  · have hle := gammaPower_le hp G
    rw [hwhite, Nat.cast_ofNat]
    linarith

/-- Settles O49: the real power lies strictly between the half-way points on either side. -/
theorem gammaMapRoundsTheRealPower : Obligations.GammaMapRoundsTheRealPower := by
  unfold Obligations.GammaMapRoundsTheRealPower
  intro p G hp _
  have hbelow := gammaMap_sub_half_lt p G
  have habove := gammaPower_lt_gammaMap_add_half hp G
  rw [← gammaPower, abs_lt]
  constructor <;> linarith

/-! ### The command -/

/-- GAMMA is not positive exactly where its word is 0 or has its sign bit set (46_arith.md R270). -/
theorem gammaValue_nonpos_iff (s : State) : s.gammaValue ≤ 0 ↔ s.gamma = 0#16 ∨ 0x8000 ≤ s.gamma.toNat := by
  rw [State.gammaValue, BitVec.toInt_eq_toNat_cond, BitVec.toNat_eq]
  split <;> simp <;> omega

/-- The check of 46_arith.md R270. -/
def gammaChecks (s : State) : List (Bool × Cause) := [(decide (s.gammaValue ≤ 0), .invalidGamma)]

theorem firstFailure_gammaChecks (s : State) : firstFailure (gammaChecks s) =
    if s.gammaValue ≤ 0 then some .invalidGamma else none := by
  simp [gammaChecks, firstFailure]

theorem commandResult_gamma (s : State) : commandResult .gamma s = checked (gammaChecks s ++ s.unaryChecks)
    (.output s.dest fun y x c => gammaPixel s.gammaValue (s.pix0 y x c)) := rfl

/-- Settles O38, a clause for each branch of the check. -/
theorem gammaMustBePositive : Obligations.GammaMustBePositive := by
  unfold Obligations.GammaMustBePositive
  intro s
  have hchecks := firstFailure_gammaChecks s
  refine ⟨fun hword => ?nonpositive, fun h1 hmax hfault => ?positive⟩
  case nonpositive =>
    rw [if_pos ((gammaValue_nonpos_iff s).2 hword)] at hchecks
    exact faults_of_failing_params (commandResult_gamma s) hchecks
  case positive =>
    have hpos : ¬ s.gammaValue ≤ 0 := by
      rw [gammaValue_nonpos_iff, BitVec.toNat_eq]
      simp only [BitVec.toNat_ofNat]
      omega
    rw [if_neg hpos] at hchecks
    simpa using hfault.cause_of_passing_params (commandResult_gamma s) hchecks

/-- `clip` leaves `gamma_map` as it is (46_arith.md R269). -/
theorem gammaPixel_eq (G : Int) (a : Nat) : gammaPixel G a = gammaMap a G.toNat :=
  clip_of_nat _ (gammaMap_le _ _)

/-- Settles O33: past its check GAMMA stores `gamma_map`, which needs no clip. -/
theorem gammaStoresTheRemappedPixel : Obligations.GammaStoresTheRemappedPixel := by
  unfold Obligations.GammaStoresTheRemappedPixel
  intro s hpos hready
  have hparams : firstFailure (gammaChecks s) = none := by
    rw [firstFailure_gammaChecks, if_neg (show ¬ s.gammaValue ≤ 0 from not_le.2 hpos)]
  have hcomputes :=
    computes_of_unaryReady (commandResult_gamma s) (firstFailure_eq_none.1 hparams) hready fun _ _ _ => clip_le _
  exact hcomputes.congr fun y x c _ _ _ => gammaPixel_eq s.gammaValue (s.pix0 y x c)

end Sys2Proof.Machine
end

section
/-! SUPPORT. GRAY (47_gray.md): each pixel against plain arithmetic (R282) and what the command stores (R281). -/

namespace Sys2Proof.Machine

/-- The weights sum to 1000, so the weighted mean of intensities is an intensity and needs no clip (47_gray.md R282). -/
theorem grayPixel_standard {r g b : Nat} (hr : r ≤ 255) (hg : g ≤ 255) (hb : b ≤ 255) :
    grayPixel .standard r g b = (rneDiv (299 * (r : Int) + 587 * (g : Int) + 114 * (b : Int)) 1000).toNat := by
  rw [grayPixel]
  generalize hn : 299 * (r : Int) + 587 * (g : Int) + 114 * (b : Int) = n
  have hlo : 0 ≤ rneDiv n 1000 := le_rneDiv (by decide) (by omega)
  have hhi : rneDiv n 1000 ≤ 255 := rneDiv_le (by decide) (by omega)
  have hclip := clip_eq (rneDiv n 1000)
  omega

theorem grayPixel_le (mode : GrayMode) {r g b : Nat} (hr : r ≤ 255) (hg : g ≤ 255) (hb : b ≤ 255) :
    grayPixel mode r g b ≤ 255 := by
  cases mode with
  | standard => exact clip_le _
  | redOnly => exact hr
  | greenOnly => exact hg
  | blueOnly => exact hb

/-- With its operands in order, GRAY comes to the reduction of each pixel of source 0. -/
theorem commandResult_gray {s : State} (mode : GrayMode) (h : GrayReady s) : commandResult (.gray mode) s =
    .output s.destGray fun y x _ => grayPixel mode (s.pix0 y x 0) (s.pix0 y x 1) (s.pix0 y x 2) :=
  checked_of_pass ((grayReady_iff s).1 h)

/-- Settles O34: past its checks GRAY stores the reduction of each pixel; of the modes only the weighted sum
computes. -/
theorem grayStoresOneChannel : Obligations.GrayStoresOneChannel := by
  unfold Obligations.GrayStoresOneChannel
  intro s mode hready
  have hexec := exec_eq (.gray mode) s
  rw [commandResult_gray mode hready] at hexec
  obtain ⟨hbytes, houtside⟩ := s.finish_output_writesBuffer s.destGray fun y x _ =>
    grayPixel_le mode (s.pix0_le y x 0) (s.pix0_le y x 1) (s.pix0_le y x 2)
  refine ⟨_, hexec, rfl, fun y x k hy hx hk => (hbytes y x k hy hx hk).trans ?_, houtside⟩
  cases mode with
  | standard => exact grayPixel_standard (s.pix0_le y x 0) (s.pix0_le y x 1) (s.pix0_le y x 2)
  | _ => rfl

end Sys2Proof.Machine
end

section
/-! SUPPORT. The report of a completion (60_exceptions.md R300, R301) and the interrupt output (R305). -/

namespace Sys2Proof.Machine

/-- Settles O22: a finished result is a fault or a completion with cause 0, and every cause has a code of 1 to 12. -/
theorem completionReportsAndFaultsArePrecise : Obligations.CompletionReportsAndFaultsArePrecise := by
  unfold Obligations.CompletionReportsAndFaultsArePrecise
  intro i s
  refine ⟨_, exec_eq i s, ?_⟩
  obtain ⟨c, -, hfin⟩ | ⟨-, hfin⟩ | ⟨d, out, -, hfin⟩ := s.finish_cases (commandResult i s) <;> rw [hfin]
  · exact .inr ⟨c, s.complete_fault c, c.code_range.2⟩
  · exact .inl s.complete_ok
  · exact .inl rfl

/-- Finishing a result is a completion, on a state that differs in pixel memory at most. -/
theorem State.finish_eq_complete (s : State) (r : CommandResult) :
    ∃ (m : Memory) (code : BitVec 5), s.finish r = State.complete { s with pmem := m } code := by
  obtain ⟨c, -, hfin⟩ | ⟨-, hfin⟩ | ⟨d, out, -, hfin⟩ := s.finish_cases r
  · exact ⟨s.pmem, c.code, hfin⟩
  · exact ⟨s.pmem, 0#5, hfin⟩
  · exact ⟨_, 0#5, hfin⟩

/-- Completion raises `irq` through the enable of `DONE`, and through that of `ERR` where `ERR` was set or is set by a
cause. -/
theorem State.complete_irq (s : State) (code : BitVec 5) : (s.complete code).irq = true ↔
    s.ieDone = true ∨ (s.ieErr = true ∧ (s.err = true ∨ code ≠ 0#5)) := by
  by_cases hcode : code = 0#5 <;> simp [State.irq, hcode, and_comm]

theorem State.launch_irq (s : State) (w : Word) : (s.launch w).irq = false := by
  simp [State.irq]

/-- Settles O21: `irq` is a function of the report, which completion, launch and reset each leave as their rule says. -/
theorem interruptFollowsCompletion : Obligations.InterruptFollowsCompletion := by
  unfold Obligations.InterruptFollowsCompletion
  refine ⟨fun s => rfl, fun i s t herr ht => ?_, State.launch_irq, rfl⟩
  rw [exec_eq] at ht
  cases ht
  obtain ⟨m, code, hfin⟩ := s.finish_eq_complete (commandResult i s)
  rw [hfin, State.complete_irq, State.complete_cause]
  simp [herr]

end Sys2Proof.Machine
end

section
/-! SUPPORT. The checks of every command by the groups of 60_exceptions.md R292: parameters, shapes, addresses. -/

namespace Sys2Proof.Machine

/-! ### The three groups of checks -/

/-- The parameter checks of the command (60_exceptions.md R292 group 2). -/
def paramChecks (i : Instr) (s : State) : List (Bool × Cause) :=
  match i with
  | .conv _ ksel _ k => convChecks s ksel k
  | .median _ r => medianChecks r
  | .sobel _ angles => sobelChecks angles
  | .gamma => gammaChecks s
  | _ => []

/-- The shape checks that only some commands make, past source 0 (60_exceptions.md R295; 47_gray.md R283). -/
def furtherShapeChecks (i : Instr) (s : State) : List (Bool × Cause) :=
  match i with
  | .gray _ => [(decide (s.source0.c ≠ 3), .unsupportedChannelCount)]
  | .add | .sub | .mul | .div => [shapeCheck s.source1, (!s.source0.sameShape s.source1, .shapeMismatch)]
  | _ => []

/-- The shape checks of the command (60_exceptions.md R292 group 3). -/
def shapeChecks (i : Instr) (s : State) : List (Bool × Cause) := shapeCheck s.source0 :: furtherShapeChecks i s

/-- The buffer the command writes (10_state.md R35; 47_gray.md R281). -/
def destBuffer (i : Instr) (s : State) : Buffer :=
  match i with
  | .gray _ => s.destGray
  | _ => s.dest

/-- The address checks of the command (60_exceptions.md R292 group 4, R296). -/
def addressChecks (i : Instr) (s : State) : List (Bool × Cause) :=
  if readsSource1 i then addressChecks2 s.source0 s.source1 (destBuffer i s)
  else addressChecks1 s.source0 (destBuffer i s)

/-- All checks of the command, in their order (60_exceptions.md R292). -/
def allChecks (i : Instr) (s : State) : List (Bool × Cause) :=
  paramChecks i s ++ (shapeChecks i s ++ addressChecks i s)

section
variable {i : Instr} {s : State} {c : Cause}

/-- Every command but NOP makes its checks and then writes its destination buffer. -/
theorem commandResult_eq_checked (hi : i ≠ .nop) (s : State) :
    ∃ out, commandResult i s = checked (allChecks i s) (.output (destBuffer i s) out) := by
  cases i with
  | nop => exact absurd rfl hi
  | _ => exact ⟨_, rfl⟩

theorem destRange_eq (hi : i ≠ .nop) (s : State) : destRange i s = ((destBuffer i s).base, (destBuffer i s).size) := by
  cases i with
  | nop => exact absurd rfl hi
  | gray mode => simp [destRange, destBuffer]
  | _ => rfl

theorem faults_iff_firstFailure (hi : i ≠ .nop) : Faults i s c ↔ firstFailure (allChecks i s) = some c := by
  obtain ⟨out, hresult⟩ := commandResult_eq_checked hi s
  rw [faults_iff, hresult, checked_output_eq_fault_iff]

/-- A command that passes all its checks completes without fault. -/
theorem completes_of_firstFailure_eq_none (hi : i ≠ .nop) (h : firstFailure (allChecks i s) = none) :
    ∃ t, exec i s = .next t ∧ CompletedOk s t := by
  obtain ⟨out, hresult⟩ := commandResult_eq_checked hi s
  rw [checked_of_pass (firstFailure_eq_none.1 h)] at hresult
  exact ⟨_, exec_eq i s, by rw [hresult]; rfl⟩

/-! ### The causes of a command -/

/-- The causes of the command's checks are those that the table of 60_exceptions.md R297 marks for it. -/
theorem allChecks_causes_subset (hi : i ≠ .nop) (s : State) :
    (allChecks i s).map Prod.snd ⊆ possibleCauses i := by
  cases i with
  | nop => exact absurd rfl hi
  | _ =>
    simp [allChecks, paramChecks, shapeChecks, furtherShapeChecks, addressChecks, readsSource1, convChecks,
      medianChecks, sobelChecks, gammaChecks, addressChecks1, addressChecks2, shapeCheck, rangeCheck, possibleCauses]

/-- Settles O23: the cause of a fault is that of one of the command's checks, and NOP makes none. -/
theorem eachCommandRaisesOnlyItsOwnCauses : Obligations.EachCommandRaisesOnlyItsOwnCauses := by
  unfold Obligations.EachCommandRaisesOnlyItsOwnCauses
  intro i s c hfault
  by_cases hi : i = .nop
  · subst hi
    cases faults_iff.1 hfault
  · have hmem := firstFailure_mem ((faults_iff_firstFailure hi).1 hfault)
    exact allChecks_causes_subset hi s (List.mem_map_of_mem hmem)

/-! ### What each group of checks answers -/

theorem firstFailure_paramChecks_eq_none_iff : firstFailure (paramChecks i s) = none ↔ ParamsPass i s := by
  cases i with
  | conv bp ksel neg k => exact firstFailure_convChecks_eq_none_iff bp neg
  | median bp r =>
    rw [paramChecks, firstFailure_medianChecks, ParamsPass]
    split_ifs <;> simp <;> omega
  | sobel bp angles =>
    rw [paramChecks, firstFailure_sobelChecks, ParamsPass]
    split_ifs with h <;> simp [h]
  | gamma =>
    rw [paramChecks, firstFailure_gammaChecks, ParamsPass, ← State.gammaValue, ← not_le]
    split_ifs with h <;> simp [h]
  | _ => exact ⟨fun _ => trivial, fun _ => rfl⟩

/-- A check that passes hands on to the rest (60_exceptions.md R292). -/
theorem firstFailure_cons_not (passed : Bool) (c : Cause) (rest : List (Bool × Cause)) :
    firstFailure ((!passed, c) :: rest) = if passed = true then firstFailure rest else some c := by
  cases passed <;> rfl

theorem firstFailure_singleton (failed : Bool) (c : Cause) :
    firstFailure [(failed, c)] = if failed = true then some c else none := rfl

/-- Past the parameters the shapes are checked, and past them the addresses. -/
theorem firstFailure_allChecks (hparams : ParamsPass i s) :
    firstFailure (allChecks i s) = (firstFailure (shapeChecks i s)).or (firstFailure (addressChecks i s)) := by
  rw [allChecks, firstFailure_append, firstFailure_paramChecks_eq_none_iff.2 hparams, Option.none_or,
    firstFailure_append]

/-- A shape that fails ends a command whose parameters pass. -/
theorem faults_of_failing_shape (hi : i ≠ .nop) (hparams : ParamsPass i s)
    (h : firstFailure (shapeChecks i s) = some c) : Faults i s c := by
  rw [faults_iff_firstFailure hi, firstFailure_allChecks hparams, h, Option.some_or]

/-! ### Shapes -/

theorem source0_validShape_iff (s : State) : s.source0.validShape = true ↔ ValidShape s.src0 := validShape_iff s.src0

theorem source1_validShape_iff (s : State) : s.source1.validShape = true ↔ ValidShape s.src1 := validShape_iff s.src1

/-- Whatever the command, the shape of source 0 is checked first (60_exceptions.md R295). -/
theorem firstFailure_shapeChecks (i : Instr) (s : State) : firstFailure (shapeChecks i s) =
    if s.source0.validShape = true then firstFailure (furtherShapeChecks i s) else some .invalidShape :=
  firstFailure_cons_not _ _ _

theorem firstFailure_furtherShapeChecks_gray (mode : GrayMode) (s : State) :
    firstFailure (furtherShapeChecks (.gray mode) s) =
      if s.src0.channels.toNat = 3 then none else some .unsupportedChannelCount := by
  have hc : s.source0.c = s.src0.channels.toNat := rfl
  by_cases h : s.src0.channels.toNat = 3 <;> simp [furtherShapeChecks, firstFailure, hc, h]

/-- With two sources, source 1 is checked next, and then that the two agree (46_arith.md R251). -/
theorem firstFailure_furtherShapeChecks_binary (hi : readsSource1 i = true) (s : State) :
    firstFailure (furtherShapeChecks i s) =
      if s.source1.validShape = true then
        if s.source0.sameShape s.source1 = true then none else some .shapeMismatch
      else some .invalidShape := by
  cases i with
  | add | sub | mul | div => simp only [furtherShapeChecks, shapeCheck, firstFailure_cons_not]; rfl
  | _ => cases hi

theorem firstFailure_shapeChecks_of_pass (h : ShapesPass i s) : firstFailure (shapeChecks i s) = none := by
  obtain ⟨hvalid0, hbinary, hgray⟩ := h
  rw [firstFailure_shapeChecks, if_pos ((source0_validShape_iff s).2 hvalid0)]
  cases i with
  | gray mode => rw [firstFailure_furtherShapeChecks_gray, if_pos (hgray mode rfl)]
  | add | sub | mul | div =>
    obtain ⟨hvalid1, hsame⟩ := hbinary rfl
    rw [firstFailure_furtherShapeChecks_binary rfl, if_pos ((source1_validShape_iff s).2 hvalid1),
      if_pos ((sameShape_iff s).2 hsame)]
  | _ => rfl

/-- A command that reads source 1 has no parameters to check. -/
theorem paramsPass_of_readsSource1 (hi : readsSource1 i = true) (s : State) : ParamsPass i s := by
  cases i with
  | add | sub | mul | div => trivial
  | _ => cases hi

theorem ne_nop_of_readsSource1 (hi : readsSource1 i = true) : i ≠ .nop := by
  rintro rfl
  cases hi

/-- Settles O39: each clause is a branch of the shape checks. -/
theorem shapeFaultsInTheirOrder : Obligations.ShapeFaultsInTheirOrder := by
  unfold Obligations.ShapeFaultsInTheirOrder
  refine ⟨fun i s hi hparams hinvalid0 => ?source0, fun mode s hvalid0 hchannels => ?gray,
    fun i s hi hvalid0 hinvalid1 => ?source1, fun i s hi hvalid0 hvalid1 hdiffer => ?mismatch⟩
  case source0 =>
    refine faults_of_failing_shape hi hparams ?_
    rw [firstFailure_shapeChecks, if_neg (mt (source0_validShape_iff s).1 hinvalid0)]
  case gray =>
    refine faults_of_failing_shape (by simp) trivial ?_
    rw [firstFailure_shapeChecks, if_pos ((source0_validShape_iff s).2 hvalid0),
      firstFailure_furtherShapeChecks_gray, if_neg hchannels]
  case source1 =>
    have hreads : readsSource1 i = true := decide_eq_true hi
    refine faults_of_failing_shape (ne_nop_of_readsSource1 hreads) (paramsPass_of_readsSource1 hreads s) ?_
    rw [firstFailure_shapeChecks, if_pos ((source0_validShape_iff s).2 hvalid0),
      firstFailure_furtherShapeChecks_binary hreads, if_neg (mt (source1_validShape_iff s).1 hinvalid1)]
  case mismatch =>
    have hreads : readsSource1 i = true := decide_eq_true hi
    refine faults_of_failing_shape (ne_nop_of_readsSource1 hreads) (paramsPass_of_readsSource1 hreads s) ?_
    rw [firstFailure_shapeChecks, if_pos ((source0_validShape_iff s).2 hvalid0),
      firstFailure_furtherShapeChecks_binary hreads, if_pos ((source1_validShape_iff s).2 hvalid1),
      if_neg (mt (sameShape_iff s).1 hdiffer)]

/-! ### Addresses -/

/-- Past the shapes only an address faults. -/
theorem firstFailure_allChecks_of_pass (hparams : ParamsPass i s) (hshapes : ShapesPass i s) :
    firstFailure (allChecks i s) = firstFailure (addressChecks i s) := by
  rw [firstFailure_allChecks hparams, firstFailure_shapeChecks_of_pass hshapes, Option.none_or]

/-- The checks of 60_exceptions.md R296, in their order. -/
theorem firstFailure_addressChecks (i : Instr) (s : State) : firstFailure (addressChecks i s) =
    if s.source0.fits = true then
      if readsSource1 i = true → s.source1.fits = true then
        if (destBuffer i s).fits = true then
          if (destBuffer i s).overlaps s.source0 = true ∨
              (readsSource1 i = true ∧ (destBuffer i s).overlaps s.source1 = true) then some .bufferOverlap
          else none
        else some .addressRange
      else some .addressRange
    else some .addressRange := by
  cases hreads : readsSource1 i with
  | false =>
    simp [addressChecks, hreads, addressChecks1, rangeCheck, firstFailure_cons_not, firstFailure_singleton]
  | true =>
    simp [addressChecks, hreads, addressChecks2, rangeCheck, firstFailure_cons_not, firstFailure_singleton]

/-- Settles O40: each clause is a branch of the address checks; a source 1 that is read has the size of source 0. -/
theorem addressFaultsInTheirOrder : Obligations.AddressFaultsInTheirOrder := by
  unfold Obligations.AddressFaultsInTheirOrder
  intro i s hi hparams hshapes
  have ⟨_, hbinary, _⟩ := hshapes
  have hsize : readsSource1 i = true → byteCount s.src1 = byteCount s.src0 := fun hreads => (hbinary hreads).2.byteCount
  have hfits0 : s.source0.fits = true ↔ Fits s.src0.base.toNat (byteCount s.src0) := fits_iff _
  have hfits1 : (readsSource1 i = true → s.source1.fits = true) ↔
      (readsSource1 i = true → Fits s.src1.base.toNat (byteCount s.src0)) :=
    imp_congr_right fun hreads => by rw [fits_iff, source1_base, source1_size, hsize hreads]
  have hfitsDest := fits_iff (destBuffer i s)
  have hoverlap0 := overlaps_iff (destBuffer i s) s.source0
  have hoverlap1 : (readsSource1 i = true ∧ (destBuffer i s).overlaps s.source1 = true) ↔
      (readsSource1 i = true ∧
        Overlap (destBuffer i s).base (destBuffer i s).size s.src1.base.toNat (byteCount s.src0)) :=
    and_congr_right fun hreads => by rw [overlaps_iff, source1_base, source1_size, hsize hreads]
  have hchecks := (firstFailure_allChecks_of_pass hparams hshapes).trans (firstFailure_addressChecks i s)
  rw [destRange_eq hi]
  simp only [faults_iff_firstFailure hi, hchecks]
  refine ⟨fun h0 => ?source0, fun h0 hreads h1 => ?source1, fun h0 h1 hd => ?dest,
    fun h0 h1 hd => ⟨fun hshare => ?overlap, fun hd0 hd1 => ?pass⟩⟩
  case source0 => rw [if_neg (mt hfits0.1 h0)]
  case source1 => rw [if_pos (hfits0.2 h0), if_neg fun h => h1 (hfits1.1 h hreads)]
  case dest => rw [if_pos (hfits0.2 h0), if_pos (hfits1.2 h1), if_neg (mt hfitsDest.1 hd)]
  case overlap =>
    rw [if_pos (hfits0.2 h0), if_pos (hfits1.2 h1), if_pos (hfitsDest.2 hd),
      if_pos ((or_congr hoverlap0 hoverlap1).2 hshare)]
  case pass =>
    have hdisjoint := mt (or_congr hoverlap0 hoverlap1).1 (not_or.2 ⟨hd0, not_and.2 hd1⟩)
    rw [if_pos (hfits0.2 h0), if_pos (hfits1.2 h1), if_pos (hfitsDest.2 hd), if_neg hdisjoint] at hchecks
    exact completes_of_firstFailure_eq_none hi hchecks

end

end Sys2Proof.Machine
end

section
/-! SUPPORT. The reset of either kind (70_reset_and_hazards.md R330 to R333): the registers at their reset values, pixel
memory kept but for the destination of an aborted command. -/

namespace Sys2Proof.Machine

/-! ### The reset state -/

/-- Settles O56: the reset state lists no byte and holds no report. -/
theorem resetMeetsTheInvariant : Obligations.ResetMeetsTheInvariant := by
  unfold Obligations.ResetMeetsTheInvariant
  exact {
    memory := Memory.wf_nil
    busyIsSilent := by simp
    causeCode := by simp
    errHasCause := by simp
    stickyBit0 := by simp }

/-- After a reset every register of the map reads its reset value (70_reset_and_hazards.md R330). -/
theorem State.doReset_regWord (s : State) (r : Reg) : s.doReset.regWord r = State.reset.regWord r := by
  cases r <;> rfl

theorem State.doReset_turns (s : State) : s.doReset.turns = s.turns := s.hostTurn_turns .hardReset

/-! ### One step at a reset -/

section
variable {s : State} {turn : Turn} {rest : List Turn}

theorem step_hardReset (h : s.turns = .hardReset :: rest) :
    step s = .next (State.doReset { s with turns := rest }) :=
  step_eq_hostTurn (by simp) h

/-- A write of `SRST` is accepted in either engine state, and its other bits are discarded (10_state.md R24). -/
theorem step_softReset {v : Word} (h : s.turns = .regWrite 32 0x008 v :: rest) (hv : v.getLsbD 31 = true) :
    step s = .next { State.doReset { s with turns := rest } with resp := .okWrite } := by
  rw [step_regWrite_accepted (r := .ctrl) h (s.acceptsWrite_of_writableBusy rfl rfl), State.writeReg, State.writeCtrl,
    hv, if_pos rfl]

/-- A turn that resets leaves the reset state of the machine, with some response. -/
theorem step_of_resets (h : s.turns = turn :: rest) (hreset : turn.resets = true) :
    ∃ a, step s = .next { State.doReset { s with turns := rest } with resp := a } := by
  cases turn with
  | hardReset => exact ⟨_, step_hardReset h⟩
  | regWrite width off v =>
    simp only [Turn.resets, Bool.and_eq_true, decide_eq_true_eq] at hreset
    obtain ⟨⟨rfl, rfl⟩, hv⟩ := hreset
    exact ⟨_, step_softReset h hv⟩
  | _ => cases hreset

end

/-- Settles O17: both steps reset the state with the turn taken off. -/
theorem softResetEqualsHardwareReset : Obligations.SoftResetEqualsHardwareReset := by
  unfold Obligations.SoftResetEqualsHardwareReset
  exact fun s v rest hv => ⟨_, step_hardReset rfl, step_softReset rfl hv⟩

/-- Settles O16: the registers read as those of `State.reset`, whose words are the published ones. -/
theorem resetGivesEveryRegisterItsResetValue : Obligations.ResetGivesEveryRegisterItsResetValue := by
  unfold Obligations.ResetGivesEveryRegisterItsResetValue
  intro s turn rest hturns hreset
  obtain ⟨a, hstep⟩ := step_of_resets hturns hreset
  have hreg : ∀ r, State.regWord { State.doReset { s with turns := rest } with resp := a } r = State.reset.regWord r :=
    fun r => (State.regWord_with_own_fields _ r _ a).trans (State.doReset_regWord _ r)
  refine ⟨_, hstep, State.doReset_turns _, rfl, ?_⟩
  simp only [hreg]
  refine ⟨rfl, rfl, rfl, rfl, rfl, rfl, rfl, rfl, rfl, rfl, rfl, rfl, rfl, rfl, rfl, fun i => ?_, rfl, rfl⟩
  simp [State.regWord, State.reset]

/-! ### Pixel memory -/

/-- Without a running command that would write, an abort keeps pixel memory (70_reset_and_hazards.md R331, R333). -/
theorem State.abort_pmem_of_no_dest {s : State} (h : s.runningDest? = none) : s.abort.pmem = s.pmem := by
  simp only [State.abort, h]

/-- An abort changes no byte outside the destination of the command it aborts (70_reset_and_hazards.md R333). -/
theorem State.abort_unchangedOutside {s : State} {d : Buffer} (h : s.runningDest? = some d) :
    UnchangedOutside s s.abort d.base d.size := by
  intro k hk
  simp only [State.abort, h]
  exact (Memory.read_fill _ _ _ _ k).trans (if_neg (by omega))

theorem State.runningDest?_of_idle {s : State} (h : s.busy = false) : s.runningDest? = none := by
  rw [State.runningDest?, h, if_neg Bool.false_ne_true]

theorem State.runningDest?_of_illegal {s : State} {e : DecodeError} (h : decode s.cmd = .error e) :
    s.runningDest? = none := by
  simp [State.runningDest?, State.fetchWord, h]

/-- The destination of a running command is that of its result. -/
theorem State.runningDest?_of_decode {s : State} {i : Instr} (h : decode s.cmd = .ok i) :
    s.runningDest? = if s.busy then (commandResult i s).dest? else none := by
  simp only [State.runningDest?, State.fetchWord, h]

section
variable {s : State} {i : Instr}

/-- A command that would fault has no destination to leave open (70_reset_and_hazards.md R333). -/
theorem State.runningDest?_of_faults {c : Cause} (hdecode : decode s.cmd = .ok i) (hfault : Faults i s c) :
    s.runningDest? = none := by
  rw [State.runningDest?_of_decode hdecode, faults_iff.1 hfault]
  exact ite_self _

/-- The destination that an abort leaves open is the destination range of the command in `CMD` (60_exceptions.md
R296). -/
theorem destRange_of_runningDest? {d : Buffer} (hdecode : decode s.cmd = .ok i) (hdest : s.runningDest? = some d) :
    destRange i s = (d.base, d.size) := by
  rw [State.runningDest?_of_decode hdecode, Option.ite_none_right_eq_some] at hdest
  obtain ⟨-, hdest⟩ := hdest
  obtain rfl | ⟨c, hfault⟩ | ⟨e, out, hout, hrange⟩ := commandResult_cases i s
  · cases hdest
  · rw [hfault] at hdest
    cases hdest
  · rw [hout] at hdest
    cases hdest
    exact hrange

/-- An abort changes no byte outside the destination range of the command in `CMD`. -/
theorem State.abort_unchangedOutside_destRange (hdecode : decode s.cmd = .ok i) :
    UnchangedOutside s s.abort (destRange i s).1 (destRange i s).2 := by
  cases hdest : s.runningDest? with
  | none =>
    intro k _
    rw [State.abort_pmem_of_no_dest hdest]
  | some d =>
    rw [destRange_of_runningDest? hdecode hdest]
    exact State.abort_unchangedOutside hdest

/-- The schedule is no input of a command's destination range. -/
theorem destRange_with_turns (i : Instr) (s : State) (rest : List Turn) :
    destRange i { s with turns := rest } = destRange i s := by
  cases i <;> rfl

/-- The schedule is no input of a command's faults. -/
theorem Faults.with_turns {c : Cause} (h : Faults i s c) (rest : List Turn) : Faults i { s with turns := rest } c :=
  faults_iff.2 ((commandResult_with_flags i s ..).trans (faults_iff.1 h))

end

/-- Settles O18: a reset leaves the pixel memory of the abort, on the state with the turn taken off. -/
theorem resetKeepsPixelMemoryButTheAbortedDestination :
    Obligations.ResetKeepsPixelMemoryButTheAbortedDestination := by
  unfold Obligations.ResetKeepsPixelMemoryButTheAbortedDestination
  intro s t turn rest hturns hreset hstep
  obtain ⟨a, hstep'⟩ := step_of_resets hturns hreset
  rw [hstep'] at hstep
  cases hstep
  have hkept (hnone : State.runningDest? { s with turns := rest } = none) :
      (State.abort { s with turns := rest }).pmem = s.pmem := State.abort_pmem_of_no_dest hnone
  refine ⟨fun hidle => ?idle, fun e hillegal => ?illegal, fun i hdecode => ⟨?outside, fun ⟨c, hfault⟩ => ?fault⟩⟩
  case idle => exact hkept (State.runningDest?_of_idle hidle)
  case illegal => exact hkept (State.runningDest?_of_illegal hillegal)
  case fault => exact hkept (State.runningDest?_of_faults hdecode (hfault.with_turns rest))
  case outside =>
    rw [← destRange_with_turns i s rest]
    exact State.abort_unchangedOutside_destRange (s := { s with turns := rest }) hdecode

end Sys2Proof.Machine
end
